-- ==== Sys2Proof/Word.lean ====
section
/-! DEFINITION. The word types of the quininer/aes core: the 8-bit byte, the 32-bit host register, the
16-byte block and the 4-byte key-schedule word (00_scope.md rules R10, R12). -/

namespace Sys2Proof

/-- A byte; bit 0 is the least significant (R12). -/
abbrev Byte := BitVec 8

/-- A host register, 32 bits (R10, R12). -/
abbrev Word := BitVec 32

/-- A 64-bit GHASH byte counter (R10, R44). -/
abbrev Count := BitVec 64

/-- A 16-byte block (R10): `b0` is byte 0 of the string, the one at the lowest DMEM address (R12, R82). -/
structure Block where
  b0 : Byte
  b1 : Byte
  b2 : Byte
  b3 : Byte
  b4 : Byte
  b5 : Byte
  b6 : Byte
  b7 : Byte
  b8 : Byte
  b9 : Byte
  b10 : Byte
  b11 : Byte
  b12 : Byte
  b13 : Byte
  b14 : Byte
  b15 : Byte
deriving DecidableEq, Repr

/-- A 4-byte word of the key schedule, or one column of the state (R200, R221). -/
structure KeyWord where
  t0 : Byte
  t1 : Byte
  t2 : Byte
  t3 : Byte
deriving DecidableEq, Repr

/-- The block of sixteen zero bytes, `0^16` (R12). -/
def Block.zero : Block := ⟨0, 0, 0, 0, 0, 0, 0, 0, 0, 0, 0, 0, 0, 0, 0, 0⟩

/-- The word of four zero bytes. -/
def KeyWord.zero : KeyWord := ⟨0, 0, 0, 0⟩

end Sys2Proof
end

