-- ==== Sys2Proof/Syntax.lean ====
section
/-! DEFINITION. The commands of the core, one constructor per row of the opcode map (30_encoding.md R128).
The operand registers SRC, DST, LEN and AUX are state, not syntax (R122, R125). -/

namespace Sys2Proof

/-- One command. `pad` is the PAD field, bits 9:8 (R123); `idx` and `sel` are the IDX field, bits 19:16 (R124). -/
inductive Instr where
  | nop
  | keyLoad
  | keyClear
  | ksRead (idx : BitVec 4)
  | stateRead (sel : BitVec 4)
  | gf8Mul
  | sboxFwd
  | sboxInv
  | gf128Mul
  | blkEnc
  | blkDec
  | ecbEnc (pad : BitVec 2)
  | ecbDec (pad : BitVec 2)
  | cbcSetiv
  | cbcEnc (pad : BitVec 2)
  | cbcDec (pad : BitVec 2)
  | ctrSetctr
  | ctrXor
  | xtsSettweak
  | xexEnc (pad : BitVec 2)
  | xexDec (pad : BitVec 2)
  | xtsEnc
  | xtsDec
  | ghashInit
  | ghashUpdate
  | ghashFinal
deriving DecidableEq, Repr

end Sys2Proof
end

