-- ==== Sys2Proof/WellFormed.lean ====
section
/-! DEFINITION. Which commands the encoding admits (30_encoding.md R123, R124, R126). -/

namespace Sys2Proof

/-- PAD is 0 (NoPadding) or 1 (PKCS#7); 2 and 3 are reserved (R123). -/
def padLegal (pad : BitVec 2) : Bool := pad.toNat ≤ 1

/-- A STATE_READ selector is 0 to 7; 8 to 15 are reserved (R124). -/
def selLegal (sel : BitVec 4) : Bool := sel.toNat ≤ 7

/-- A command is well formed when its fields hold no reserved value. Every IDX of KS_READ is legal (R124). -/
def Instr.wellFormed : Instr → Bool
  | .nop => true
  | .keyLoad => true
  | .keyClear => true
  | .ksRead _ => true
  | .stateRead sel => selLegal sel
  | .gf8Mul => true
  | .sboxFwd => true
  | .sboxInv => true
  | .gf128Mul => true
  | .blkEnc => true
  | .blkDec => true
  | .ecbEnc pad => padLegal pad
  | .ecbDec pad => padLegal pad
  | .cbcSetiv => true
  | .cbcEnc pad => padLegal pad
  | .cbcDec pad => padLegal pad
  | .ctrSetctr => true
  | .ctrXor => true
  | .xtsSettweak => true
  | .xexEnc pad => padLegal pad
  | .xexDec pad => padLegal pad
  | .xtsEnc => true
  | .xtsDec => true
  | .ghashInit => true
  | .ghashUpdate => true
  | .ghashFinal => true

end Sys2Proof
end

