-- ==== Sys2Proof/Decode.lean ====
section
/-! DEFINITION. The command decoder and encoder (30_encoding.md R120 to R129). A command is one 32-bit word
(R121); decoding is total, and every word that is no command is rejected by name. Execute reports each of
these as ILLEGAL_CMD (R126). -/

namespace Sys2Proof

/-- Why a word is no command (R129). -/
inductive DecodeError where
  | reservedBits
  | unknownOp
  | reservedPad
  | padNotTaken
  | idxNotTaken
  | reservedSel
deriving DecidableEq, Repr

/-- The OP field, bits 7:0 (R120). -/
def opField (w : Word) : BitVec 8 := w.extractLsb' 0 8

/-- The PAD field, bits 9:8 (R120). -/
def padField (w : Word) : BitVec 2 := w.extractLsb' 8 2

/-- The IDX field, bits 19:16 (R120). -/
def idxField (w : Word) : BitVec 4 := w.extractLsb' 16 4

/-- Bits 15:10 and 31:20 are zero (R120, R126). -/
def reservedClear (w : Word) : Bool := w.extractLsb' 10 6 == 0#6 && w.extractLsb' 20 12 == 0#12

/-- The opcode map (R128): the command of an opcode, with its fields. -/
def instrOf (op : BitVec 8) (pad : BitVec 2) (idx : BitVec 4) : Option Instr :=
  match op.toNat with
  | 0x00 => some .nop
  | 0x01 => some .keyLoad
  | 0x02 => some .keyClear
  | 0x03 => some (.ksRead idx)
  | 0x04 => some (.stateRead idx)
  | 0x05 => some .gf8Mul
  | 0x06 => some .sboxFwd
  | 0x07 => some .sboxInv
  | 0x08 => some .gf128Mul
  | 0x10 => some .blkEnc
  | 0x11 => some .blkDec
  | 0x20 => some (.ecbEnc pad)
  | 0x21 => some (.ecbDec pad)
  | 0x28 => some .cbcSetiv
  | 0x29 => some (.cbcEnc pad)
  | 0x2A => some (.cbcDec pad)
  | 0x30 => some .ctrSetctr
  | 0x31 => some .ctrXor
  | 0x38 => some .xtsSettweak
  | 0x39 => some (.xexEnc pad)
  | 0x3A => some (.xexDec pad)
  | 0x3B => some .xtsEnc
  | 0x3C => some .xtsDec
  | 0x40 => some .ghashInit
  | 0x41 => some .ghashUpdate
  | 0x42 => some .ghashFinal
  | _ => none

/-- Whether a command takes the PAD field (R120, R128). -/
def Instr.takesPad : Instr → Bool
  | .nop => false
  | .keyLoad => false
  | .keyClear => false
  | .ksRead _ => false
  | .stateRead _ => false
  | .gf8Mul => false
  | .sboxFwd => false
  | .sboxInv => false
  | .gf128Mul => false
  | .blkEnc => false
  | .blkDec => false
  | .ecbEnc _ => true
  | .ecbDec _ => true
  | .cbcSetiv => false
  | .cbcEnc _ => true
  | .cbcDec _ => true
  | .ctrSetctr => false
  | .ctrXor => false
  | .xtsSettweak => false
  | .xexEnc _ => true
  | .xexDec _ => true
  | .xtsEnc => false
  | .xtsDec => false
  | .ghashInit => false
  | .ghashUpdate => false
  | .ghashFinal => false

/-- Whether a command takes the IDX field (R120, R128). -/
def Instr.takesIdx : Instr → Bool
  | .nop => false
  | .keyLoad => false
  | .keyClear => false
  | .ksRead _ => true
  | .stateRead _ => true
  | .gf8Mul => false
  | .sboxFwd => false
  | .sboxInv => false
  | .gf128Mul => false
  | .blkEnc => false
  | .blkDec => false
  | .ecbEnc _ => false
  | .ecbDec _ => false
  | .cbcSetiv => false
  | .cbcEnc _ => false
  | .cbcDec _ => false
  | .ctrSetctr => false
  | .ctrXor => false
  | .xtsSettweak => false
  | .xexEnc _ => false
  | .xexDec _ => false
  | .xtsEnc => false
  | .xtsDec => false
  | .ghashInit => false
  | .ghashUpdate => false
  | .ghashFinal => false

/-- The field checks of R126, in its order, on a command found in the opcode map. -/
def checkFields (i : Instr) (pad : BitVec 2) (idx : BitVec 4) : Except DecodeError Instr :=
  if i.takesPad && !padLegal pad then .error .reservedPad
  else if !i.takesPad && pad != 0#2 then .error .padNotTaken
  else if !i.takesIdx && idx != 0#4 then .error .idxNotTaken
  else if !i.wellFormed then .error .reservedSel
  else .ok i

/-- The decode of Execute (R126). -/
def decode (w : Word) : Except DecodeError Instr :=
  if !reservedClear w then .error .reservedBits
  else
    match instrOf (opField w) (padField w) (idxField w) with
    | none => .error .unknownOp
    | some i => checkFields i (padField w) (idxField w)

/-- The instruction the decoder reads from the `nbits` low bits of `w`, numbered as the opcode table numbers
them: a command is one 32-bit word, so the table's bit `k` is the word's bit `k` (R120, R121). -/
def decodeTableWord (nbits w : Nat) : Option Instr :=
  if w % 2 ^ nbits < 2 ^ 32 then (decode (BitVec.ofNat 32 (w % 2 ^ nbits))).toOption else none

/-- The OP value of a command (R128). -/
def Instr.opcode : Instr → BitVec 8
  | .nop => 0x00#8
  | .keyLoad => 0x01#8
  | .keyClear => 0x02#8
  | .ksRead _ => 0x03#8
  | .stateRead _ => 0x04#8
  | .gf8Mul => 0x05#8
  | .sboxFwd => 0x06#8
  | .sboxInv => 0x07#8
  | .gf128Mul => 0x08#8
  | .blkEnc => 0x10#8
  | .blkDec => 0x11#8
  | .ecbEnc _ => 0x20#8
  | .ecbDec _ => 0x21#8
  | .cbcSetiv => 0x28#8
  | .cbcEnc _ => 0x29#8
  | .cbcDec _ => 0x2A#8
  | .ctrSetctr => 0x30#8
  | .ctrXor => 0x31#8
  | .xtsSettweak => 0x38#8
  | .xexEnc _ => 0x39#8
  | .xexDec _ => 0x3A#8
  | .xtsEnc => 0x3B#8
  | .xtsDec => 0x3C#8
  | .ghashInit => 0x40#8
  | .ghashUpdate => 0x41#8
  | .ghashFinal => 0x42#8

/-- The PAD field of a command; 0 where it takes none (R120). -/
def Instr.padBits : Instr → BitVec 2
  | .nop => 0#2
  | .keyLoad => 0#2
  | .keyClear => 0#2
  | .ksRead _ => 0#2
  | .stateRead _ => 0#2
  | .gf8Mul => 0#2
  | .sboxFwd => 0#2
  | .sboxInv => 0#2
  | .gf128Mul => 0#2
  | .blkEnc => 0#2
  | .blkDec => 0#2
  | .ecbEnc pad => pad
  | .ecbDec pad => pad
  | .cbcSetiv => 0#2
  | .cbcEnc pad => pad
  | .cbcDec pad => pad
  | .ctrSetctr => 0#2
  | .ctrXor => 0#2
  | .xtsSettweak => 0#2
  | .xexEnc pad => pad
  | .xexDec pad => pad
  | .xtsEnc => 0#2
  | .xtsDec => 0#2
  | .ghashInit => 0#2
  | .ghashUpdate => 0#2
  | .ghashFinal => 0#2

/-- The IDX field of a command; 0 where it takes none (R120). -/
def Instr.idxBits : Instr → BitVec 4
  | .nop => 0#4
  | .keyLoad => 0#4
  | .keyClear => 0#4
  | .ksRead idx => idx
  | .stateRead idx => idx
  | .gf8Mul => 0#4
  | .sboxFwd => 0#4
  | .sboxInv => 0#4
  | .gf128Mul => 0#4
  | .blkEnc => 0#4
  | .blkDec => 0#4
  | .ecbEnc _ => 0#4
  | .ecbDec _ => 0#4
  | .cbcSetiv => 0#4
  | .cbcEnc _ => 0#4
  | .cbcDec _ => 0#4
  | .ctrSetctr => 0#4
  | .ctrXor => 0#4
  | .xtsSettweak => 0#4
  | .xexEnc _ => 0#4
  | .xexDec _ => 0#4
  | .xtsEnc => 0#4
  | .xtsDec => 0#4
  | .ghashInit => 0#4
  | .ghashUpdate => 0#4
  | .ghashFinal => 0#4

/-- The command word of a command (R120, R128). -/
def encode (i : Instr) : Word := (0#12 ++ i.idxBits ++ 0#6 ++ i.padBits ++ i.opcode : BitVec 32)

/-- Whether a command needs the round keys (R127). -/
def Instr.needsKey : Instr → Bool
  | .nop => false
  | .keyLoad => false
  | .keyClear => false
  | .ksRead _ => true
  | .stateRead _ => false
  | .gf8Mul => false
  | .sboxFwd => false
  | .sboxInv => false
  | .gf128Mul => false
  | .blkEnc => true
  | .blkDec => true
  | .ecbEnc _ => true
  | .ecbDec _ => true
  | .cbcSetiv => false
  | .cbcEnc _ => true
  | .cbcDec _ => true
  | .ctrSetctr => false
  | .ctrXor => true
  | .xtsSettweak => true
  | .xexEnc _ => true
  | .xexDec _ => true
  | .xtsEnc => true
  | .xtsDec => true
  | .ghashInit => false
  | .ghashUpdate => false
  | .ghashFinal => false

end Sys2Proof
end

