-- ==== Sys2Proof/Machine/Bytes.lean ====
section
/-! DEFINITION. Byte strings, blocks and their numbers: the operators of 00_scope.md R12 and R13 and the byte
orders of 20_memory.md R82. A byte string is a list of bytes, byte 0 first. -/

namespace Sys2Proof

/-- The sixteen bytes of a block, byte 0 first (R12). -/
def Block.toBytes (b : Block) : List Byte :=
  [b.b0, b.b1, b.b2, b.b3, b.b4, b.b5, b.b6, b.b7, b.b8, b.b9, b.b10, b.b11, b.b12, b.b13, b.b14, b.b15]

/-- The block of a byte string's first sixteen bytes; bytes the string does not have are zero, as in the
zero padding of R383. -/
def Block.ofBytes (l : List Byte) : Block :=
  ⟨l.getD 0 0, l.getD 1 0, l.getD 2 0, l.getD 3 0, l.getD 4 0, l.getD 5 0, l.getD 6 0, l.getD 7 0,
   l.getD 8 0, l.getD 9 0, l.getD 10 0, l.getD 11 0, l.getD 12 0, l.getD 13 0, l.getD 14 0, l.getD 15 0⟩

/-- `b[i]` (R12). -/
def Block.get (b : Block) (i : Nat) : Byte := b.toBytes.getD i 0

/-- The block with byte `i` replaced by `x`. -/
def Block.set (b : Block) (i : Nat) (x : Byte) : Block := Block.ofBytes (b.toBytes.set i x)

/-- The bytewise exclusive or of two blocks (R13). -/
def Block.xor (a b : Block) : Block :=
  ⟨a.b0 ^^^ b.b0, a.b1 ^^^ b.b1, a.b2 ^^^ b.b2, a.b3 ^^^ b.b3,
   a.b4 ^^^ b.b4, a.b5 ^^^ b.b5, a.b6 ^^^ b.b6, a.b7 ^^^ b.b7,
   a.b8 ^^^ b.b8, a.b9 ^^^ b.b9, a.b10 ^^^ b.b10, a.b11 ^^^ b.b11,
   a.b12 ^^^ b.b12, a.b13 ^^^ b.b13, a.b14 ^^^ b.b14, a.b15 ^^^ b.b15⟩

/-- The bytewise exclusive or of two key words (R13). -/
def KeyWord.xor (a b : KeyWord) : KeyWord :=
  ⟨a.t0 ^^^ b.t0, a.t1 ^^^ b.t1, a.t2 ^^^ b.t2, a.t3 ^^^ b.t3⟩

/-- The bytewise exclusive or of two byte strings of one length (R13). -/
def xorBytes (a b : List Byte) : List Byte := List.zipWith (· ^^^ ·) a b

/-- The big-endian number of a byte string: byte 0 is the most significant. -/
def beNat (l : List Byte) : Nat := l.foldl (fun acc b => 256 * acc + b.toNat) 0

/-- The `n` low-order bytes of a number, most significant first. -/
def beBytes (n x : Nat) : List Byte := (List.range n).map fun i => BitVec.ofNat 8 (x / 256 ^ (n - 1 - i))

/-- `be128(b)` (R13). -/
def Block.be128 (b : Block) : Nat := beNat b.toBytes

/-- `from_be128(x)`, the inverse of `be128` for numbers below 2^128 (R13). -/
def Block.fromBe128 (x : Nat) : Block := Block.ofBytes (beBytes 16 x)

/-- `be64(x)`, the 8-byte big-endian string of `x mod 2^64` (R13). -/
def be64 (x : Nat) : List Byte := beBytes 8 (x % 2 ^ 64)

/-- `0^n` (R12). -/
def zeros (n : Nat) : List Byte := List.replicate n 0

/-- The whole blocks `d[0..16), d[16..32), …` of a byte string. -/
def blocksOf (d : List Byte) : List Block :=
  (List.range (d.length / 16)).map fun j => Block.ofBytes (d.drop (16 * j))

/-- The blocks of a byte string zero-padded to a 16-byte boundary (R383). -/
def paddedBlocksOf (d : List Byte) : List Block :=
  (List.range ((d.length + 15) / 16)).map fun j => Block.ofBytes (d.drop (16 * j))

/-- The byte string of a list of blocks, in order. -/
def bytesOf (bs : List Block) : List Byte := bs.flatMap Block.toBytes

/-- A host value on DMEM's little-endian lanes: the sum of `b[i] * 256^i` (R84). -/
def leNat (l : List Byte) : Nat := l.foldr (fun b acc => b.toNat + 256 * acc) 0

/-- The `n` bytes a host write of `v` puts on DMEM's little-endian lanes: byte `i` is `(v >> 8i) mod 256` (R84). -/
def leBytes (n : Nat) (v : Word) : List Byte := (List.range n).map fun i => (v >>> (8 * i)).setWidth 8

end Sys2Proof
end

