-- ==== Sys2Proof/Machine/GF.lean ====
section
/-! DEFINITION. The GF(2^8) and GF(2^128) engines and the constant tables (40_gf_tables.md R160 to R169). -/

namespace Sys2Proof

/-- One round of the multiplier of R161 from `a`: `a` shifted left, reduced by 0x1B when bit 7 is lost. -/
def xtime (a : Byte) : Byte := if a.getLsbD 7 then (a <<< 1) ^^^ 0x1B#8 else a <<< 1

/-- The loop of R161 with `n` rounds to go. -/
def gmulLoop : Nat → Byte → Byte → Byte → Byte
  | 0, _, _, p => p
  | n + 1, a, b, p => gmulLoop n (xtime a) (b >>> 1) (if b.getLsbD 0 then p ^^^ a else p)

/-- `gmul(a, b)`, the product in GF(2^8) (R161). -/
def gmul (a b : Byte) : Byte := gmulLoop 8 a b 0

/-- `a^2` in GF(2^8). -/
def gsquare (a : Byte) : Byte := gmul a a

/-- `ginv(a)`, the multiplicative inverse, with `ginv(0) = 0` (R162). The multiplicative group has 255
elements, so the inverse is `a^254`, the product of `a^2`, `a^4`, … and `a^128`; Laws/GF.lean shows that it is
the byte R162 names. DEDUCED (log 12). -/
def ginv (a : Byte) : Byte :=
  let a2 := gsquare a
  let a4 := gsquare a2
  let a8 := gsquare a4
  let a16 := gsquare a8
  let a32 := gsquare a16
  let a64 := gsquare a32
  gmul a2 (gmul a4 (gmul a8 (gmul a16 (gmul a32 (gmul a64 (gsquare a64))))))

/-- The affine transform of R163. -/
def affine (b : Byte) : Byte :=
  b ^^^ b.rotateLeft 1 ^^^ b.rotateLeft 2 ^^^ b.rotateLeft 3 ^^^ b.rotateLeft 4 ^^^ 0x63#8

/-- The rows of the SBOX table of R163, one 16-byte string a row: the row is the high nibble of the input. -/
def sboxRows : List (BitVec 128) :=
  [0x637c777bf26b6fc53001672bfed7ab76#128,
   0xca82c97dfa5947f0add4a2af9ca472c0#128,
   0xb7fd9326363ff7cc34a5e5f171d83115#128,
   0x04c723c31896059a071280e2eb27b275#128,
   0x09832c1a1b6e5aa0523bd6b329e32f84#128,
   0x53d100ed20fcb15b6acbbe394a4c58cf#128,
   0xd0efaafb434d338545f9027f503c9fa8#128,
   0x51a3408f929d38f5bcb6da2110fff3d2#128,
   0xcd0c13ec5f974417c4a77e3d645d1973#128,
   0x60814fdc222a908846eeb814de5e0bdb#128,
   0xe0323a0a4906245cc2d3ac629195e479#128,
   0xe7c8376d8dd54ea96c56f4ea657aae08#128,
   0xba78252e1ca6b4c6e8dd741f4bbd8b8a#128,
   0x703eb5664803f60e613557b986c11d9e#128,
   0xe1f8981169d98e949b1e87e9ce5528df#128,
   0x8ca1890dbfe6426841992d0fb054bb16#128]

/-- The rows of the RSBOX table of R164, laid out as `sboxRows`. -/
def rsboxRows : List (BitVec 128) :=
  [0x52096ad53036a538bf40a39e81f3d7fb#128,
   0x7ce339829b2fff87348e4344c4dee9cb#128,
   0x547b9432a6c2233dee4c950b42fac34e#128,
   0x082ea16628d924b2765ba2496d8bd125#128,
   0x72f8f66486689816d4a45ccc5d65b692#128,
   0x6c704850fdedb9da5e154657a78d9d84#128,
   0x90d8ab008cbcd30af7e45805b8b34506#128,
   0xd02c1e8fca3f0f02c1afbd0301138a6b#128,
   0x3a9111414f67dcea97f2cfcef0b4e673#128,
   0x96ac7422e7ad3585e2f937e81c75df6e#128,
   0x47f11a711d29c5896fb7620eaa18be1b#128,
   0xfc563e4bc6d279209adbc0fe78cd5af4#128,
   0x1fdda8338807c731b11210592780ec5f#128,
   0x60517fa919b54a0d2de57a9f93c99cef#128,
   0xa0e03b4dae2af5b0c8ebbb3c83539961#128,
   0x172b047eba77d626e169146355210c7d#128]

/-- An entry of a table of rows: the high nibble of `i` selects the row and the low nibble the column, column
0 first (R163, R164). -/
def tableEntry (rows : List (BitVec 128)) (i : Byte) : Byte :=
  (rows.getD (i.toNat / 16) 0).extractLsb' (8 * (15 - i.toNat % 16)) 8

/-- `SBOX[i]` (R163). -/
def sbox (i : Byte) : Byte := tableEntry sboxRows i

/-- `RSBOX[i]` (R164). -/
def rsbox (i : Byte) : Byte := tableEntry rsboxRows i

/-- The ten round constants, indexed from 0 (R165; 90_conflicts.md C2). -/
def rconTable : List Byte := [0x01, 0x02, 0x04, 0x08, 0x10, 0x20, 0x40, 0x80, 0x1b, 0x36]

/-- `RCON[j]` (R165). -/
def rcon (j : Nat) : Byte := rconTable.getD j 0

/-- The multiplicand's round in R167: shifted right, reduced by 0xE1 << 120 when bit 0 is lost. -/
def gf128Shift (x : BitVec 128) : BitVec 128 :=
  if x.getLsbD 0 then (x >>> 1) ^^^ (0xE1#128 <<< 120) else x >>> 1

/-- The loop of R167 over the bits of `y` below bit `i`, from the highest down. -/
def gf128Loop : Nat → BitVec 128 → BitVec 128 → BitVec 128 → BitVec 128
  | 0, _, _, z => z
  | i + 1, x, y, z => gf128Loop i (gf128Shift x) y (if y.getLsbD i then z ^^^ x else z)

/-- The product of R167 on the 128-bit integers. -/
def gf128mulBits (x y : BitVec 128) : BitVec 128 := gf128Loop 128 x y 0

/-- `gf128mul(x, y)` on 16-byte strings (R167). -/
def gf128mul (x y : Block) : Block :=
  Block.fromBe128 (gf128mulBits (BitVec.ofNat 128 x.be128) (BitVec.ofNat 128 y.be128)).toNat

/-- One byte of the doubling of R168: `t` shifted left with the bit carried in from the byte before it. -/
def shiftIn (carry t : Byte) : Byte := (t <<< 1) ||| (carry >>> 7)

/-- `xts_double(t)` (R168): byte 0 is the least significant, and the bit carried out of byte 15 puts 0x87
into byte 0. -/
def xtsDouble (t : Block) : Block :=
  ⟨if t.b15.getLsbD 7 then (t.b0 <<< 1) ^^^ 0x87#8 else t.b0 <<< 1,
   shiftIn t.b0 t.b1, shiftIn t.b1 t.b2, shiftIn t.b2 t.b3, shiftIn t.b3 t.b4, shiftIn t.b4 t.b5,
   shiftIn t.b5 t.b6, shiftIn t.b6 t.b7, shiftIn t.b7 t.b8, shiftIn t.b8 t.b9, shiftIn t.b9 t.b10,
   shiftIn t.b10 t.b11, shiftIn t.b11 t.b12, shiftIn t.b12 t.b13, shiftIn t.b13 t.b14, shiftIn t.b14 t.b15⟩

/-- `xts_double^k(t)` (R169). -/
def xtsDoubleIter : Nat → Block → Block
  | 0, t => t
  | k + 1, t => xtsDoubleIter k (xtsDouble t)

end Sys2Proof
end

