-- ==== Sys2Proof/Machine/Cipher.lean ====
section
/-! DEFINITION. The round transforms, the key schedule and the block core (41_block_core.md R200 to R232).
The state is the block itself, `s[r][c] = b[r + 4c]` (R200); a column is a `KeyWord`. -/

namespace Sys2Proof

/-- `s[r][c]` (R200). -/
def Block.cell (b : Block) (r c : Nat) : Byte := b.get (r + 4 * c)

/-- Column `c` of the state (R200). -/
def Block.column (b : Block) (c : Nat) : KeyWord :=
  ⟨b.cell 0 c, b.cell 1 c, b.cell 2 c, b.cell 3 c⟩

/-- The block of four columns (R200). -/
def Block.ofColumns (w0 w1 w2 w3 : KeyWord) : Block :=
  ⟨w0.t0, w0.t1, w0.t2, w0.t3, w1.t0, w1.t1, w1.t2, w1.t3,
   w2.t0, w2.t1, w2.t2, w2.t3, w3.t0, w3.t1, w3.t2, w3.t3⟩

/-- A function applied to every byte of a block. -/
def Block.map (f : Byte → Byte) (s : Block) : Block :=
  ⟨f s.b0, f s.b1, f s.b2, f s.b3, f s.b4, f s.b5, f s.b6, f s.b7,
   f s.b8, f s.b9, f s.b10, f s.b11, f s.b12, f s.b13, f s.b14, f s.b15⟩

/-- `SubBytes` (R210). -/
def subBytes (s : Block) : Block := s.map sbox

/-- `InvSubBytes` (R210). -/
def invSubBytes (s : Block) : Block := s.map rsbox

/-- `ShiftRows`, by the output byte order of R211. -/
def shiftRows (s : Block) : Block :=
  ⟨s.b0, s.b5, s.b10, s.b15, s.b4, s.b9, s.b14, s.b3, s.b8, s.b13, s.b2, s.b7, s.b12, s.b1, s.b6, s.b11⟩

/-- `InvShiftRows`, by the output byte order of R212. -/
def invShiftRows (s : Block) : Block :=
  ⟨s.b0, s.b13, s.b10, s.b7, s.b4, s.b1, s.b14, s.b11, s.b8, s.b5, s.b2, s.b15, s.b12, s.b9, s.b6, s.b3⟩

/-- One column of `MixColumns` (R213). -/
def mixColumn (a : KeyWord) : KeyWord :=
  ⟨gmul 2 a.t0 ^^^ gmul 3 a.t1 ^^^ a.t2 ^^^ a.t3,
   a.t0 ^^^ gmul 2 a.t1 ^^^ gmul 3 a.t2 ^^^ a.t3,
   a.t0 ^^^ a.t1 ^^^ gmul 2 a.t2 ^^^ gmul 3 a.t3,
   gmul 3 a.t0 ^^^ a.t1 ^^^ a.t2 ^^^ gmul 2 a.t3⟩

/-- One column of `InvMixColumns` (R214). -/
def invMixColumn (a : KeyWord) : KeyWord :=
  ⟨gmul 0x0E a.t0 ^^^ gmul 0x0B a.t1 ^^^ gmul 0x0D a.t2 ^^^ gmul 0x09 a.t3,
   gmul 0x09 a.t0 ^^^ gmul 0x0E a.t1 ^^^ gmul 0x0B a.t2 ^^^ gmul 0x0D a.t3,
   gmul 0x0D a.t0 ^^^ gmul 0x09 a.t1 ^^^ gmul 0x0E a.t2 ^^^ gmul 0x0B a.t3,
   gmul 0x0B a.t0 ^^^ gmul 0x0D a.t1 ^^^ gmul 0x09 a.t2 ^^^ gmul 0x0E a.t3⟩

/-- `MixColumns` (R213). -/
def mixColumns (s : Block) : Block :=
  Block.ofColumns (mixColumn (s.column 0)) (mixColumn (s.column 1)) (mixColumn (s.column 2)) (mixColumn (s.column 3))

/-- `InvMixColumns` (R214). -/
def invMixColumns (s : Block) : Block :=
  Block.ofColumns (invMixColumn (s.column 0)) (invMixColumn (s.column 1)) (invMixColumn (s.column 2))
    (invMixColumn (s.column 3))

/-- `AddRoundKey` (R215). -/
def addRoundKey (s k : Block) : Block := s.xor k

/-- RotWord of R221: rotated left by one byte. -/
def rotWord (t : KeyWord) : KeyWord := ⟨t.t1, t.t2, t.t3, t.t0⟩

/-- The S-box on each byte of a word (R221). -/
def subWord (t : KeyWord) : KeyWord := ⟨sbox t.t0, sbox t.t1, sbox t.t2, sbox t.t3⟩

/-- The word `t` that R221 adds to `w[i-Nk]`, from `prev = w[i-1]`. -/
def scheduleWord (nk i : Nat) (prev : KeyWord) : KeyWord :=
  if i % nk = 0 then (subWord (rotWord prev)).xor ⟨rcon (i / nk - 1), 0, 0, 0⟩
  else if 6 < nk ∧ i % nk = 4 then subWord prev
  else prev

/-- The loop of R221: `n` more words after the words `w` already made. -/
def expandWords (nk : Nat) : Nat → List KeyWord → List KeyWord
  | 0, w => w
  | n + 1, w =>
    let i := w.length
    expandWords nk n
      (w ++ [(w.getD (i - nk) KeyWord.zero).xor (scheduleWord nk i (w.getD (i - 1) KeyWord.zero))])

/-- Word `i` of the key, `key[4i..4i+4)` (R82(a), R221). -/
def keyWord (key : List Byte) (i : Nat) : KeyWord :=
  ⟨key.getD (4 * i) 0, key.getD (4 * i + 1) 0, key.getD (4 * i + 2) 0, key.getD (4 * i + 3) 0⟩

/-- The words `w[0..4Nr+3]` of R221, where `Nk = n/4` and `Nr = Nk + 6` for a key of `n` bytes (R220). -/
def scheduleWords (key : List Byte) : List KeyWord :=
  let nk := key.length / 4
  expandWords nk (4 * (nk + 7) - nk) ((List.range nk).map (keyWord key))

/-- `key_expansion(key)`: the `Nr + 1` round keys of R221. -/
def keyExpansion (key : List Byte) : List Block :=
  let w := scheduleWords key
  (List.range (key.length / 4 + 7)).map fun r =>
    Block.ofColumns (w.getD (4 * r) KeyWord.zero) (w.getD (4 * r + 1) KeyWord.zero)
      (w.getD (4 * r + 2) KeyWord.zero) (w.getD (4 * r + 3) KeyWord.zero)

/-- `RK[r]` of a round key file; a register past the end reads zero. -/
def roundKey (rk : List Block) (r : Nat) : Block := rk.getD r Block.zero

/-- One middle round of R230 under a round key. -/
def encRound (k s : Block) : Block := addRoundKey (mixColumns (shiftRows (subBytes s))) k

/-- One middle round of R231 under a round key. -/
def decRound (k s : Block) : Block := invMixColumns (addRoundKey (invSubBytes (invShiftRows s)) k)

/-- `encrypt_core(RK[0..Nr], b)` (R230). -/
def encryptCore (rk : List Block) (nr : Nat) (b : Block) : Block :=
  let s := (List.range' 1 (nr - 1)).foldl (fun s r => encRound (roundKey rk r) s) (addRoundKey b (roundKey rk 0))
  addRoundKey (shiftRows (subBytes s)) (roundKey rk nr)

/-- `decrypt_core(RK[0..Nr], b)` (R231): the direct inverse cipher. -/
def decryptCore (rk : List Block) (nr : Nat) (b : Block) : Block :=
  let s := (List.range' 1 (nr - 1)).reverse.foldl (fun s r => decRound (roundKey rk r) s)
    (addRoundKey b (roundKey rk nr))
  addRoundKey (invSubBytes (invShiftRows s)) (roundKey rk 0)

end Sys2Proof
end

