-- ==== Sys2Proof/Config.lean ====
section
/-! DEFINITION. What is fixed for this hardware (00_scope.md R10), the reference value of its one open
parameter, and its one free value. -/

namespace Sys2Proof.Config

/-- The identification constant of register ID (R10, R30). -/
def idValue : Word := 0x41455301#32

/-- The least DMEM size a platform may choose (R10). -/
def memSizeMin : Nat := 16

/-- The greatest DMEM size a platform may choose, 2^31 (R10). -/
def memSizeMax : Nat := 2147483648

/-- DESIGN CHOICE (log 1). `MEM_SIZE` is an open parameter: the model holds it in `State.memSize`, and only
`State.reset` uses this reference value (R10). No statement rests on it. -/
def memSizeReference : Nat := 65536

/-- The free value (log 2): what the DMEM byte at an address reads as while neither the host nor a command
has written it since power-on number `epoch`. The spec leaves it unspecified (R50, R450; 93 U1), so it has
no body here. -/
opaque powerOnByte (epoch address : Nat) : Byte

end Sys2Proof.Config
end

