-- ==== Sys2Proof/Machine/State.lean ====
section
/-! DEFINITION. The state of the core (10_state.md R30 to R50), its reset, and the reasons a step can stop. -/

namespace Sys2Proof.Machine

/-- The loaded key size KSZ: 16, 24 or 32 bytes; the field's value 3 never occurs (R32, R39). -/
inductive KeySize where
  | bytes16
  | bytes24
  | bytes32
deriving DecidableEq, Repr

/-- The GHASH phase GHPH (R32, R44, R382). -/
inductive Phase where
  | none
  | active
  | final
deriving DecidableEq, Repr

/-- The values of STATUS.ERR (R400); codes 9 to 255 never occur. -/
inductive ErrCode where
  | ok
  | illegalCmd
  | noKey
  | badState
  | badIndex
  | badLength
  | badAddress
  | padBadData
  | padBadPadding
deriving DecidableEq, Repr

/-- The CBC context (R41). -/
structure CbcContext where
  cv : Block
  cbcv : Bool
deriving DecidableEq, Repr

/-- The CTR context (R42): the leftover keystream is the last `kslen` bytes of `ksbuf`. -/
structure CtrContext where
  cnt : Block
  ksbuf : Block
  kslen : BitVec 4
  ctrv : Bool
deriving DecidableEq, Repr

/-- The XEX/XTS context (R43). -/
structure XtsContext where
  twk : Block
  xtsv : Bool
deriving DecidableEq, Repr

/-- The GHASH context (R44): the partial block is the first `blen` bytes of `buf`. -/
structure GhashContext where
  h : Block
  acc : Block
  alen : Count
  dlen : Count
  buf : Block
  blen : BitVec 4
  ghph : Phase
deriving DecidableEq, Repr

/-- DMEM: the bytes written since power-on, by address. An address that is not listed has not been written
(log 3); State.lean's `Memory.wf` is the canonical form. -/
abbrev Memory := List Host.Cell

/-- The canonical form of DMEM: addresses strictly rising. -/
abbrev Memory.wf (m : Memory) : Prop := m.Pairwise fun c d => c.1 < d.1

/-- What the host does next (R3, R130): one access of its program, a wait for the core, or a power cycle by
the platform (R434). `nbytes` is the width of an access in bytes; an
access is named by its offset in its window (log 9, 15). -/
inductive HostEvent where
  | regWrite (offset nbytes : Nat) (value : Word)
  | regRead (offset nbytes : Nat)
  | dmemWrite (address nbytes : Nat) (value : Word)
  | dmemRead (address nbytes : Nat)
  | wait
  | powerOn
deriving DecidableEq, Repr

/-- The machine's state. The fields from `memSize` on: `memSize` is the platform's parameter (R10), `dmem` is
DMEM, and `strict`, `epoch`, `host` and `busData` are the model's own (log 7, 2, 4, 5). -/
structure State where
  /-- CTRL.IE (R31). -/
  ie : Bool
  /-- STATUS.BUSY (R32). -/
  busy : Bool
  /-- STATUS.DONE (R32). -/
  done : Bool
  /-- STATUS.OVR (R32). -/
  ovr : Bool
  /-- STATUS.ERR (R32, R400). -/
  err : ErrCode
  /-- The last word written to CMD (R35). -/
  cmd : Word
  /-- SRC (R34). -/
  src : Word
  /-- DST (R34). -/
  dst : Word
  /-- LEN (R34). -/
  len : Word
  /-- AUX (R34). -/
  aux : Word
  /-- OUTLEN (R35). -/
  outlen : Word
  /-- The latched command (R37). -/
  cmdl : Word
  /-- The latched SRC (R37). -/
  srcl : Word
  /-- The latched DST (R37). -/
  dstl : Word
  /-- The latched LEN (R37). -/
  lenl : Word
  /-- The latched AUX (R37). -/
  auxl : Word
  /-- The round key file RK[0..14] (R38). -/
  rk : List Block
  /-- STATUS.KEYV (R32, R38). -/
  keyv : Bool
  /-- STATUS.KSZ (R32, R39). -/
  ksz : KeySize
  /-- The CBC context (R41). -/
  cbc : CbcContext
  /-- The CTR context (R42). -/
  ctr : CtrContext
  /-- The XEX/XTS context (R43). -/
  xts : XtsContext
  /-- The GHASH context (R44). -/
  ghash : GhashContext
  /-- MEM_SIZE, which MEMSIZE reads as (R10, R30); no step changes it. -/
  memSize : Nat
  /-- Whether a breach of the host's contract stops the machine, as R405 has a model treat it, or has the outcome
  R47 and R88 define (log 7); no step changes it. -/
  strict : Bool
  /-- DMEM (R80). -/
  dmem : Memory
  /-- How often the core has been powered on before: it selects the unspecified DMEM content (log 2). -/
  epoch : Nat
  /-- The host's program still to come, the next event first (log 4). -/
  host : List HostEvent
  /-- What the host's last read returned (log 5). -/
  busData : Option Word
deriving DecidableEq, Repr

/-- Why the machine stops: a host event of R405. Each is raised by a host access, never by a command; the core's
state does not change, and "no claim can be proved about a run that contains one" (R405). Safe. -/
inductive Fault where
  /-- An access to the register space that is not an aligned 32-bit word of it (R83, R405(c)); raised by the
  host's register accesses. Safe: no claim can be proved about a run past it. -/
  | registerBusError (offset nbytes : Nat)
  /-- A DMEM access that is misaligned, out of range, or not 8, 16 or 32 bits wide (R84, R405(c)); raised by the
  host's DMEM accesses. Safe: no claim can be proved about a run past it. -/
  | dmemBusError (address nbytes : Nat)
  /-- A CMD write while BUSY = 1 (R405(a), R460(a)); raised by the host's register writes in a strict state. Safe:
  no claim can be proved about a run past it. -/
  | cmdWriteWhileBusy (word : Word)
  /-- A DMEM access while BUSY = 1 (R405(b), R460(b)); raised by the host's DMEM accesses in a strict state. Safe:
  no claim can be proved about a run past it. -/
  | dmemAccessWhileBusy (address nbytes : Nat)
deriving DecidableEq, Repr

/-- Why the model has no meaning for a command. -/
inductive Refusal where
  /-- The command has no meaning yet: raised by an arm of `exec`; none does. Safe. -/
  | notModelled (mnemonic : String)
deriving DecidableEq, Repr

/-- Every register, latch, round key and context after a reset (R50, R450), for a core of `memSize` DMEM bytes
powered on for the `epoch`-th time, with nothing written to DMEM and no host event waiting. -/
def State.resetOf (memSize epoch : Nat) : State where
  ie := false
  busy := false
  done := false
  ovr := false
  err := .ok
  cmd := 0
  src := 0
  dst := 0
  len := 0
  aux := 0
  outlen := 0
  cmdl := 0
  srcl := 0
  dstl := 0
  lenl := 0
  auxl := 0
  rk := List.replicate 15 Block.zero
  keyv := false
  ksz := .bytes16
  cbc := { cv := Block.zero, cbcv := false }
  ctr := { cnt := Block.zero, ksbuf := Block.zero, kslen := 0, ctrv := false }
  xts := { twk := Block.zero, xtsv := false }
  ghash := { h := Block.zero, acc := Block.zero, alen := 0, dlen := 0, buf := Block.zero, blen := 0, ghph := .none }
  memSize := memSize
  strict := true
  dmem := []
  epoch := epoch
  host := []
  busData := none

/-- The machine after power-on reset (R450), with the reference DMEM size (log 1). -/
def State.reset : State := State.resetOf Config.memSizeReference 0

end Sys2Proof.Machine
end

