-- ==== Sys2Proof/Machine/Flags.lean ====
section
/-! DEFINITION. The register fields: key sizes, error codes, and the words the status registers read as
(10_state.md R31 to R33, R39; 60_exceptions.md R400, R410). -/

namespace Sys2Proof.Machine

/-- The value of the KSZ field (R32). -/
def KeySize.code : KeySize → BitVec 2
  | .bytes16 => 0
  | .bytes24 => 1
  | .bytes32 => 2

/-- The key length in bytes (R32). -/
def KeySize.bytes : KeySize → Nat
  | .bytes16 => 16
  | .bytes24 => 24
  | .bytes32 => 32

/-- `Nr = 10 + 2*KSZ` (R39). -/
def KeySize.rounds (k : KeySize) : Nat := 10 + 2 * k.code.toNat

/-- The key size of a legal key length; none for any other length (R220, R251). -/
def KeySize.ofBytes? : Nat → Option KeySize
  | 16 => some .bytes16
  | 24 => some .bytes24
  | 32 => some .bytes32
  | _ => none

/-- The value of the GHPH field (R32). -/
def Phase.code : Phase → BitVec 2
  | .none => 0
  | .active => 1
  | .final => 2

/-- The value of the ERR field (R400). -/
def ErrCode.code : ErrCode → BitVec 8
  | .ok => 0
  | .illegalCmd => 1
  | .noKey => 2
  | .badState => 3
  | .badIndex => 4
  | .badLength => 5
  | .badAddress => 6
  | .padBadData => 7
  | .padBadPadding => 8

/-- One bit. -/
def bit (b : Bool) : BitVec 1 := BitVec.ofBool b

/-- What CTRL reads as (R31): SRST reads 0. -/
def State.ctrlWord (s : State) : Word := (0#31 ++ bit s.ie : BitVec 32)

/-- What STATUS reads as, from bit 31 down to bit 0 (R32). -/
def State.statusWord (s : State) : Word :=
  (0#8 ++ s.err.code ++ 0#5 ++ s.ghash.ghph.code ++ bit s.xts.xtsv ++ bit s.ctr.ctrv ++ bit s.cbc.cbcv ++
    s.ksz.code ++ bit s.keyv ++ bit s.ovr ++ bit s.done ++ bit s.busy : BitVec 32)

/-- The NR field: `Nr` with a schedule loaded, else 0 (R33). -/
def State.nrField (s : State) : BitVec 4 := if s.keyv then BitVec.ofNat 4 s.ksz.rounds else 0

/-- What CTXINFO reads as (R33). -/
def State.ctxInfoWord (s : State) : Word :=
  (0#20 ++ s.nrField ++ s.ghash.blen ++ s.ctr.kslen : BitVec 32)

/-- The interrupt output, a level (R410; its delivery is the platform's: log 14). -/
def State.irq (s : State) : Bool := s.ie && s.done

/-- A host write to STATUS: bit 1 clears DONE and bit 2 clears OVR, and nothing else changes (R32). -/
def State.writeStatus (s : State) (v : Word) : State :=
  { s with done := s.done && !v.getLsbD 1, ovr := s.ovr && !v.getLsbD 2 }

end Sys2Proof.Machine
end

