-- ==== Sys2Proof/Machine/Ops.lean ====
section
/-! DEFINITION. The shared operations: DMEM by byte and by string (20_memory.md), completing a command with
or without an error (60_exceptions.md R401), issuing one (R47) and the resets (R450, R451). -/

namespace Sys2Proof.Machine

/-- The outcome of a command or a step. -/
abbrev Result := Host.Outcome State Fault Refusal

/-- The byte written last at an address, if any was. -/
def Memory.lookup : Memory → Nat → Option Byte
  | [], _ => none
  | (k, v) :: rest, a => if k = a then some v else Memory.lookup rest a

/-- DMEM with byte `a` set to `v`, in canonical form. -/
def Memory.set : Memory → Nat → Byte → Memory
  | [], a, v => [(a, v)]
  | (k, w) :: rest, a, v =>
    if a < k then (a, v) :: (k, w) :: rest
    else if a = k then (a, v) :: rest
    else (k, w) :: Memory.set rest a v

/-- DMEM with the bytes of a string set from address `a` up, in ascending address order (R14, R82). -/
def Memory.setBytes : Memory → Nat → List Byte → Memory
  | m, _, [] => m
  | m, a, v :: rest => Memory.setBytes (m.set a v) (a + 1) rest

/-- What a DMEM byte that nothing has written since power-on reads as: the free value of log 2. -/
def unwrittenByte (epoch a : Nat) : Byte := Config.powerOnByte epoch a

/-- `DMEM[a]`: the one read of a DMEM byte (R80). -/
def State.dmemByte (s : State) (a : Nat) : Byte := (s.dmem.lookup a).getD (unwrittenByte s.epoch a)

/-- `MemRead(a, n)` (R14). -/
def State.memRead (s : State) (a n : Nat) : List Byte := (List.range n).map fun i => s.dmemByte (a + i)

/-- `valid(a, n)`, in unbounded integers (R15). -/
def State.valid (s : State) (a n : Nat) : Bool := n == 0 || decide (a + n ≤ s.memSize)

/-- `MemWrite(a, n, v)` for a string `v` of `n` bytes (R14). -/
def State.memWrite (s : State) (a : Nat) (v : List Byte) : State := { s with dmem := s.dmem.setBytes a v }

/-- Completion with an error code (R48). -/
def State.complete (s : State) (code : ErrCode) : State := { s with err := code, busy := false, done := true }

/-- `raise Error(code)`: the command completes with the code, and nothing else of `s` changes (R401). This is
the core's whole exception mechanism: no state is saved and no control is transferred (R406), and there is no
return from it (R407). -/
def raiseError (code : ErrCode) (s : State) : Result := .next (s.complete code)

/-- The command completes without an error (R48). -/
def succeed (s : State) : Result := .next (s.complete .ok)

/-- `if not ok then raise Error(code)`, else `k`. -/
def check (ok : Bool) (code : ErrCode) (s : State) (k : Result) : Result := if ok then k else raiseError code s

/-- `E(b)` under the loaded schedule (R40). -/
def State.encrypt (s : State) (b : Block) : Block := encryptCore s.rk s.ksz.rounds b

/-- `D(b)` under the loaded schedule (R40). -/
def State.decrypt (s : State) (b : Block) : Block := decryptCore s.rk s.ksz.rounds b

/-- The issue of a command by a CMD write (R47), with BUSY = 0. DESIGN CHOICE (log 16): OUTLEN and STATUS.ERR are
cleared here, as R47, R32 and R401 say, where R35 and R460(c) have them keep their values until completion. -/
def State.issue (s : State) (w : Word) : State :=
  { s with
    cmd := w, cmdl := w, srcl := s.src, dstl := s.dst, lenl := s.len, auxl := s.aux,
    busy := true, done := false, err := .ok, outlen := 0 }

/-- Soft reset (R451): everything to its reset value but DMEM and the constants. The host's program and the
data it last read are not the core's. -/
def State.softReset (s : State) : State :=
  { State.resetOf s.memSize s.epoch with
    strict := s.strict, dmem := s.dmem, host := s.host, busData := s.busData }

/-- A power cycle (R434, R450): all state is lost, and DMEM's content is unspecified anew
(DESIGN CHOICE, log 10). -/
def State.powerCycle (s : State) : State :=
  { State.resetOf s.memSize (s.epoch + 1) with strict := s.strict, host := s.host, busData := s.busData }

end Sys2Proof.Machine
end

