-- ==== Sys2Proof/Machine/Padding.lean ====
section
/-! DEFINITION. The padding unit (43_block_modes.md R300 to R302; 30_encoding.md R123). -/

namespace Sys2Proof.Machine

/-- The two padding variants (R123). -/
inductive Pad where
  | noPad
  | pkcs7
deriving DecidableEq, Repr

/-- The variant a PAD field selects; 2 and 3 are reserved (R123). -/
def Pad.ofField? (pad : BitVec 2) : Option Pad :=
  if pad = 0#2 then some .noPad else if pad = 1#2 then some .pkcs7 else none

/-- The PAD field that selects a variant (R123). -/
def Pad.field : Pad → BitVec 2
  | .noPad => 0
  | .pkcs7 => 1

/-- The number of bytes PKCS#7 adds to `n` bytes, 1 to 16 (R301). -/
def padCount (n : Nat) : Nat := 16 - n % 16

/-- `pad1(d)` (R301). -/
def pad1 (d : List Byte) : List Byte :=
  d ++ List.replicate (padCount d.length) (BitVec.ofNat 8 (padCount d.length))

/-- `unpad1(d)` with the failures of R302. -/
def unpad1 (d : List Byte) : Except ErrCode (List Byte) :=
  if d.length % 16 ≠ 0 then .error .padBadData
  else if d.length = 0 then .error .padBadPadding
  else
    let p := (d.getD (d.length - 1) 0).toNat
    if ¬(1 ≤ p ∧ p ≤ 16) then .error .padBadPadding
    else if (d.drop (d.length - p)).all (fun x => x.toNat == p) then .ok (d.take (d.length - p))
    else .error .padBadPadding

/-- The padded plaintext of an encrypting block mode: `pad0` or `pad1` (R300, R301). -/
def padBytes : Pad → List Byte → List Byte
  | .noPad, d => d
  | .pkcs7, d => pad1 d

/-- The number of bytes of the padded plaintext, `n_out` of R303. -/
def paddedLength : Pad → Nat → Nat
  | .noPad, n => n
  | .pkcs7, n => n + padCount n

/-- The unpadded plaintext of a decrypting block mode: `unpad0`, which never fails, or `unpad1` (R300, R302). -/
def unpadBytes : Pad → List Byte → Except ErrCode (List Byte)
  | .noPad, d => .ok d
  | .pkcs7, d => unpad1 d

end Sys2Proof.Machine
end

