-- ==== Sys2Proof/Machine/Operands.lean ====
section
/-! DEFINITION. The operand forms of the commands (30_encoding.md R122 to R125; 43_block_modes.md R303 to
R305). An operand is read through the latches only (R37). -/

namespace Sys2Proof.Machine

/-- The address in SRCL. -/
def State.srcAddr (s : State) : Nat := s.srcl.toNat

/-- The address in DSTL. -/
def State.dstAddr (s : State) : Nat := s.dstl.toNat

/-- The byte count in LENL. -/
def State.count (s : State) : Nat := s.lenl.toNat

/-- The address in AUXL. -/
def State.auxAddr (s : State) : Nat := s.auxl.toNat

/-- `valid(SRCL, n)` (R15). -/
def State.srcValid (s : State) (n : Nat) : Bool := s.valid s.srcAddr n

/-- `valid(DSTL, n)` (R15). -/
def State.dstValid (s : State) (n : Nat) : Bool := s.valid s.dstAddr n

/-- `valid(AUXL, n)` (R15). -/
def State.auxValid (s : State) (n : Nat) : Bool := s.valid s.auxAddr n

/-- The 16-byte string at a DMEM address, as a block. -/
def State.blockAt (s : State) (a : Nat) : Block := Block.ofBytes (s.memRead a 16)

/-- The 16-byte operand at SRCL. -/
def State.srcBlock (s : State) : Block := s.blockAt s.srcAddr

/-- The LENL-byte operand at SRCL. -/
def State.srcBytes (s : State) : List Byte := s.memRead s.srcAddr s.count

/-- The LENL-byte operand at AUXL. -/
def State.auxBytes (s : State) : List Byte := s.memRead s.auxAddr s.count

/-- `MemWrite(DSTL, n, v); OUTLEN <- n` for a string `v` of `n` bytes (R35, R125). -/
def State.writeOut (s : State) (v : List Byte) : State :=
  { s.memWrite s.dstAddr v with outlen := BitVec.ofNat 32 v.length }

/-- The lengths block `be64(8*GH_ALEN) || be64(8*GH_DLEN)` (R82(d), R124). -/
def GhashContext.lengthsBlock (g : GhashContext) : Block :=
  Block.ofBytes (be64 (8 * g.alen.toNat) ++ be64 (8 * g.dlen.toNat))

/-- The context register a STATE_READ selector names; 8 to 15 are reserved (R124). -/
def State.contextRegister (s : State) (sel : BitVec 4) : Option Block :=
  match sel.toNat with
  | 0 => some s.cbc.cv
  | 1 => some s.ctr.cnt
  | 2 => some s.ctr.ksbuf
  | 3 => some s.xts.twk
  | 4 => some s.ghash.h
  | 5 => some s.ghash.acc
  | 6 => some s.ghash.buf
  | 7 => some s.ghash.lengthsBlock
  | _ => none

/-- A command that takes PAD: a reserved value is an illegal command (R123, R126; DEDUCED, log 11). -/
def withPad (pad : BitVec 2) (s : State) (k : Pad → Result) : Result :=
  match Pad.ofField? pad with
  | some p => k p
  | none => raiseError .illegalCmd s

/-- `enc_input(pad)` (R303): the checks, then `k` on the padded plaintext. -/
def encInput (p : Pad) (s : State) (k : List Byte → Result) : Result :=
  check (p == .pkcs7 || s.count % 16 == 0) .badLength s <|
  check (s.srcValid s.count && s.dstValid (paddedLength p s.count)) .badAddress s <|
  k (padBytes p s.srcBytes)

/-- `dec_input()` (R304): the checks, then `k` on the ciphertext. -/
def decInput (s : State) (k : List Byte → Result) : Result :=
  check (s.srcValid s.count && s.dstValid s.count) .badAddress s <|
  check (s.count % 16 == 0) .padBadData s <|
  k s.srcBytes

/-- `dec_output(pad, out)` (R305), from the state `s` with the mode's update made: on a padding failure the
update is kept and nothing is written. -/
def decOutput (p : Pad) (s : State) (out : List Byte) : Result :=
  match unpadBytes p out with
  | .ok d => succeed (s.writeOut d)
  | .error _ => raiseError .padBadPadding s

end Sys2Proof.Machine
end

