-- ==== Sys2Proof/Machine/Cbc.lean ====
section
/-! DEFINITION. The CBC mode (43_block_modes.md R320 to R322). -/

namespace Sys2Proof.Machine

/-- The state with a new chaining value. -/
def State.setCv (s : State) (cv : Block) : State := { s with cbc := { s.cbc with cv := cv } }

/-- CBC_SETIV (R320). -/
def execCbcSetiv (s : State) : Result :=
  check (s.srcValid 16) .badAddress s <|
  succeed { s with cbc := { cv := s.srcBlock, cbcv := true } }

/-- The loop of R321 from chaining value `cv`: the ciphertext blocks and the last chaining value. -/
def cbcEncrypt (enc : Block → Block) : Block → List Block → List Block × Block
  | cv, [] => ([], cv)
  | cv, p :: ps =>
    let c := enc (p.xor cv)
    let r := cbcEncrypt enc c ps
    (c :: r.1, r.2)

/-- The loop of R322 from chaining value `cv`: the plaintext blocks and the last chaining value. -/
def cbcDecrypt (dec : Block → Block) : Block → List Block → List Block × Block
  | cv, [] => ([], cv)
  | cv, c :: cs =>
    let r := cbcDecrypt dec c cs
    ((dec c).xor cv :: r.1, r.2)

/-- CBC_ENC (R321). -/
def execCbcEnc (pad : BitVec 2) (s : State) : Result :=
  withPad pad s fun p =>
  check s.keyv .noKey s <|
  check s.cbc.cbcv .badState s <|
  encInput p s fun d =>
  let r := cbcEncrypt s.encrypt s.cbc.cv (blocksOf d)
  succeed ((s.setCv r.2).writeOut (bytesOf r.1))

/-- CBC_DEC (R322). -/
def execCbcDec (pad : BitVec 2) (s : State) : Result :=
  withPad pad s fun p =>
  check s.keyv .noKey s <|
  check s.cbc.cbcv .badState s <|
  decInput s fun c =>
  let r := cbcDecrypt s.decrypt s.cbc.cv (blocksOf c)
  decOutput p (s.setCv r.2) (bytesOf r.1)

end Sys2Proof.Machine
end

