-- ==== Sys2Proof/Machine/Control.lean ====
section
/-! DEFINITION. NOP and the key commands (42_commands_control.md R250 to R253). -/

namespace Sys2Proof.Machine

/-- NOP (R250). -/
def execNop (s : State) : Result := succeed s

/-- The 15 registers of the round key file for a schedule: registers past it are zero (R38, R251). -/
def roundKeyFile (sched : List Block) : List Block := (List.range 15).map (roundKey sched)

/-- The state with a key's schedule loaded (R251). -/
def State.loadKey (s : State) (size : KeySize) (key : List Byte) : State :=
  { s with rk := roundKeyFile (keyExpansion key), ksz := size, keyv := true }

/-- KEY_LOAD (R251). -/
def execKeyLoad (s : State) : Result :=
  match KeySize.ofBytes? s.count with
  | none => raiseError .badLength s
  | some size =>
    check (s.srcValid s.count) .badAddress s <|
    succeed (s.loadKey size s.srcBytes)

/-- KEY_CLEAR (R253). -/
def execKeyClear (s : State) : Result :=
  succeed { s with rk := List.replicate 15 Block.zero, keyv := false, ksz := .bytes16 }

end Sys2Proof.Machine
end

