-- ==== Sys2Proof/Machine/Ctr.lean ====
section
/-! DEFINITION. The CTR stream mode (44_stream_hash.md R360 to R364). -/

namespace Sys2Proof.Machine

/-- CTR_SETCTR (R360). -/
def execCtrSetctr (s : State) : Result :=
  check (s.srcValid 16) .badAddress s <|
  succeed { s with ctr := { cnt := s.srcBlock, ksbuf := Block.zero, kslen := 0, ctrv := true } }

/-- `inc(CNT)` (R361). -/
def incCounter (c : Block) : Block := Block.fromBe128 ((c.be128 + 1) % 2 ^ 128)

/-- Step 1 of R362, from context `c` on data `d`: the output, the context after it, and the data left over. -/
def ctrDrain : CtrContext → List Byte → List Byte × CtrContext × List Byte
  | c, [] => ([], c, [])
  | c, x :: d =>
    if c.kslen = 0 then ([], c, x :: d)
    else
      let k := 16 - c.kslen.toNat
      let r := ctrDrain { c with ksbuf := c.ksbuf.set k 0, kslen := c.kslen - 1 } d
      ((x ^^^ c.ksbuf.get k) :: r.1, r.2)

/-- Step 2 of R362 on the full chunks: the output blocks and the context after them. -/
def ctrChunks (enc : Block → Block) : CtrContext → List Block → List Block × CtrContext
  | c, [] => ([], c)
  | c, b :: bs =>
    let r := ctrChunks enc { c with cnt := incCounter c.cnt } bs
    (b.xor (enc c.cnt) :: r.1, r.2)

/-- Step 3 of R362 on a final chunk of fewer than 16 bytes. -/
def ctrTail (enc : Block → Block) (c : CtrContext) (d : List Byte) : List Byte × CtrContext :=
  if d.length = 0 then ([], c)
  else
    let ks := (enc c.cnt).toBytes
    (xorBytes d (ks.take d.length),
     { c with
       cnt := incCounter c.cnt,
       ksbuf := Block.ofBytes (zeros d.length ++ ks.drop d.length),
       kslen := BitVec.ofNat 4 (16 - d.length) })

/-- The body of CTR_XOR: the output and the context after it (R362). -/
def ctrStream (enc : Block → Block) (c : CtrContext) (d : List Byte) : List Byte × CtrContext :=
  let drained := ctrDrain c d
  let rest := drained.2.2
  let chunks := ctrChunks enc drained.2.1 (blocksOf rest)
  let tail := ctrTail enc chunks.2 (rest.drop (16 * (rest.length / 16)))
  (drained.1 ++ bytesOf chunks.1 ++ tail.1, tail.2)

/-- CTR_XOR (R362). -/
def execCtrXor (s : State) : Result :=
  check s.keyv .noKey s <|
  check s.ctr.ctrv .badState s <|
  check (s.srcValid s.count && s.dstValid s.count) .badAddress s <|
  let r := ctrStream s.encrypt s.ctr s.srcBytes
  succeed ({ s with ctr := r.2 }.writeOut r.1)

end Sys2Proof.Machine
end

