-- ==== Sys2Proof/Machine/Ecb.lean ====
section
/-! DEFINITION. The ECB mode (43_block_modes.md R310, R311). -/

namespace Sys2Proof.Machine

/-- ECB_ENC (R310). -/
def execEcbEnc (pad : BitVec 2) (s : State) : Result :=
  withPad pad s fun p =>
  check s.keyv .noKey s <|
  encInput p s fun d =>
  succeed (s.writeOut (bytesOf ((blocksOf d).map s.encrypt)))

/-- ECB_DEC (R311). -/
def execEcbDec (pad : BitVec 2) (s : State) : Result :=
  withPad pad s fun p =>
  check s.keyv .noKey s <|
  decInput s fun c =>
  decOutput p s (bytesOf ((blocksOf c).map s.decrypt))

end Sys2Proof.Machine
end

