-- ==== Sys2Proof/Machine/Engine.lean ====
section
/-! DEFINITION. The engine commands (42_commands_control.md R260 to R263). -/

namespace Sys2Proof.Machine

/-- GF8_MUL (R260). -/
def execGf8Mul (s : State) : Result :=
  check (s.srcValid s.count && s.auxValid s.count && s.dstValid s.count) .badAddress s <|
  succeed (s.writeOut (List.zipWith gmul s.srcBytes s.auxBytes))

/-- The shape of SBOX_FWD and SBOX_INV: each byte of the input through a table (R261). -/
def mapBytes (f : Byte → Byte) (s : State) : Result :=
  check (s.srcValid s.count && s.dstValid s.count) .badAddress s <|
  succeed (s.writeOut (s.srcBytes.map f))

/-- SBOX_FWD (R261). -/
def execSboxFwd (s : State) : Result := mapBytes sbox s

/-- SBOX_INV (R262). -/
def execSboxInv (s : State) : Result := mapBytes rsbox s

/-- GF128_MUL (R263). -/
def execGf128Mul (s : State) : Result :=
  check (s.srcValid 16 && s.auxValid 16 && s.dstValid 16) .badAddress s <|
  succeed (s.writeOut (gf128mul s.srcBlock (s.blockAt s.auxAddr)).toBytes)

end Sys2Proof.Machine
end

