-- ==== Sys2Proof/Machine/Ghash.lean ====
section
/-! DEFINITION. The GHASH accumulator (44_stream_hash.md R380 to R386). -/

namespace Sys2Proof.Machine

/-- The fold of one block into an accumulator (R380). -/
def ghashFold (h acc x : Block) : Block := gf128mul h (acc.xor x)

/-- The context GHASH_INIT leaves for subkey `h` and associated data `a` (R383). -/
def ghashStart (h : Block) (a : List Byte) : GhashContext :=
  { h := h, acc := (paddedBlocksOf a).foldl (ghashFold h) Block.zero, alen := BitVec.ofNat 64 a.length, dlen := 0,
    buf := Block.zero, blen := 0, ghph := .active }

/-- GHASH_INIT (R383). -/
def execGhashInit (s : State) : Result :=
  check (s.srcValid 16 && s.auxValid s.count) .badAddress s <|
  succeed { s with ghash := ghashStart s.srcBlock s.auxBytes }

/-- One data byte into the partial block, folded when it fills the block (R384). -/
def ghashByte (g : GhashContext) (x : Byte) : GhashContext :=
  let buf := g.buf.set g.blen.toNat x
  if g.blen.toNat + 1 = 16 then { g with acc := ghashFold g.h g.acc buf, buf := Block.zero, blen := 0 }
  else { g with buf := buf, blen := g.blen + 1 }

/-- The context after a string of data bytes (R384); the count is kept mod 2^64 (R381). -/
def ghashData (g : GhashContext) (d : List Byte) : GhashContext :=
  { d.foldl ghashByte g with dlen := g.dlen + BitVec.ofNat 64 d.length }

/-- GHASH_UPDATE (R384). -/
def execGhashUpdate (s : State) : Result :=
  check (s.ghash.ghph == .active) .badState s <|
  check (s.srcValid s.count) .badAddress s <|
  succeed { s with ghash := ghashData s.ghash s.srcBytes }

/-- The partial block folded, if there is one (R385). -/
def ghashFlush (g : GhashContext) : GhashContext :=
  if 0 < g.blen.toNat then { g with acc := ghashFold g.h g.acc g.buf, buf := Block.zero, blen := 0 } else g

/-- The context after the last partial block and the lengths block (R385). -/
def ghashFinish (g : GhashContext) : GhashContext :=
  let f := ghashFlush g
  { f with acc := ghashFold f.h f.acc f.lengthsBlock, ghph := .final }

/-- GHASH_FINAL (R385). -/
def execGhashFinal (s : State) : Result :=
  check (s.ghash.ghph == .active) .badState s <|
  check (s.dstValid 16) .badAddress s <|
  let g := ghashFinish s.ghash
  succeed ({ s with ghash := g }.writeOut g.acc.toBytes)

end Sys2Proof.Machine
end

