-- ==== Sys2Proof/Machine/ReadBack.lean ====
section
/-! DEFINITION. The read-back commands (42_commands_control.md R254, R256). -/

namespace Sys2Proof.Machine

/-- KS_READ (R254). -/
def execKsRead (idx : BitVec 4) (s : State) : Result :=
  check s.keyv .noKey s <|
  check (decide (idx.toNat ≤ s.ksz.rounds)) .badIndex s <|
  check (s.dstValid 16) .badAddress s <|
  succeed (s.writeOut (roundKey s.rk idx.toNat).toBytes)

/-- STATE_READ (R256); a reserved selector is an illegal command (R124, R126; DEDUCED, log 11). -/
def execStateRead (sel : BitVec 4) (s : State) : Result :=
  match s.contextRegister sel with
  | none => raiseError .illegalCmd s
  | some v =>
    check (s.dstValid 16) .badAddress s <|
    succeed (s.writeOut v.toBytes)

end Sys2Proof.Machine
end

