-- ==== Sys2Proof/Machine/SingleBlock.lean ====
section
/-! DEFINITION. The single-block cipher (42_commands_control.md R270, R271). -/

namespace Sys2Proof.Machine

/-- The shape of BLK_ENC and BLK_DEC: one block through a function of the cipher (R270). -/
def mapBlock (f : Block → Block) (s : State) : Result :=
  check s.keyv .noKey s <|
  check (s.count == 16) .badLength s <|
  check (s.srcValid 16 && s.dstValid 16) .badAddress s <|
  succeed (s.writeOut (f s.srcBlock).toBytes)

/-- BLK_ENC (R270). -/
def execBlkEnc (s : State) : Result := mapBlock s.encrypt s

/-- BLK_DEC (R271). -/
def execBlkDec (s : State) : Result := mapBlock s.decrypt s

end Sys2Proof.Machine
end

