-- ==== Sys2Proof/Machine/Xts.lean ====
section
/-! DEFINITION. The XEX and XTS modes (43_block_modes.md R330 to R342). -/

namespace Sys2Proof.Machine

/-- The state with a new tweak. -/
def State.setTwk (s : State) (t : Block) : State := { s with xts := { s.xts with twk := t } }

/-- XTS_SETTWEAK (R330). -/
def execXtsSettweak (s : State) : Result :=
  check s.keyv .noKey s <|
  check (s.srcValid 16) .badAddress s <|
  succeed { s with xts := { twk := s.encrypt s.srcBlock, xtsv := true } }

/-- The single-block function of R331: `xex_enc` over `E`, and `xex_dec` over `D`. -/
def xexBlock (f : Block → Block) (b t : Block) : Block := (f (b.xor t)).xor t

/-- The loop of R332 and R333 from tweak `t`: the output blocks and the next tweak. -/
def xexBlocks (f : Block → Block) : Block → List Block → List Block × Block
  | t, [] => ([], t)
  | t, b :: bs =>
    let r := xexBlocks f (xtsDouble t) bs
    (xexBlock f b t :: r.1, r.2)

/-- XEX_ENC (R332). -/
def execXexEnc (pad : BitVec 2) (s : State) : Result :=
  withPad pad s fun p =>
  check s.keyv .noKey s <|
  check s.xts.xtsv .badState s <|
  encInput p s fun d =>
  let r := xexBlocks s.encrypt s.xts.twk (blocksOf d)
  succeed ((s.setTwk r.2).writeOut (bytesOf r.1))

/-- XEX_DEC (R333). -/
def execXexDec (pad : BitVec 2) (s : State) : Result :=
  withPad pad s fun p =>
  check s.keyv .noKey s <|
  check s.xts.xtsv .badState s <|
  decInput s fun c =>
  let r := xexBlocks s.decrypt s.xts.twk (blocksOf c)
  decOutput p (s.setTwk r.2) (bytesOf r.1)

/-- Block `j` of a byte string, `P_j` of R340. -/
def blockOf (d : List Byte) (j : Nat) : Block := Block.ofBytes (d.drop (16 * j))

/-- The first `n` blocks of a byte string, block `j` through `xex` under `T_j` (R340, R341). -/
def xtsPrefix (f : Block → Block) (t : Block) (d : List Byte) (n : Nat) : List Byte :=
  (List.range n).flatMap fun j => (xexBlock f (blockOf d j) (xtsDoubleIter j t)).toBytes

/-- The body of XTS_ENC on a plaintext of at least 16 bytes: the ciphertext and the next tweak (R340). -/
def xtsEncrypt (enc : Block → Block) (t : Block) (d : List Byte) : List Byte × Block :=
  let m := d.length / 16
  let b := d.length % 16
  if b = 0 then (xtsPrefix enc t d m, xtsDoubleIter m t)
  else
    let cc := xexBlock enc (blockOf d (m - 1)) (xtsDoubleIter (m - 1) t)
    let pp := Block.ofBytes (d.drop (16 * m) ++ cc.toBytes.drop b)
    (xtsPrefix enc t d (m - 1) ++ (xexBlock enc pp (xtsDoubleIter m t)).toBytes ++ cc.toBytes.take b,
     xtsDoubleIter (m + 1) t)

/-- The body of XTS_DEC on a ciphertext of at least 16 bytes: the plaintext and the next tweak (R341). -/
def xtsDecrypt (dec : Block → Block) (t : Block) (d : List Byte) : List Byte × Block :=
  let m := d.length / 16
  let b := d.length % 16
  if b = 0 then (xtsPrefix dec t d m, xtsDoubleIter m t)
  else
    let pp := xexBlock dec (blockOf d (m - 1)) (xtsDoubleIter m t)
    let cc := Block.ofBytes (d.drop (16 * m) ++ pp.toBytes.drop b)
    (xtsPrefix dec t d (m - 1) ++ (xexBlock dec cc (xtsDoubleIter (m - 1) t)).toBytes ++ pp.toBytes.take b,
     xtsDoubleIter (m + 1) t)

/-- The shape of XTS_ENC and XTS_DEC: the checks, then a body on the input (R340, R341). -/
def xtsCommand (body : Block → List Byte → List Byte × Block) (s : State) : Result :=
  check s.keyv .noKey s <|
  check s.xts.xtsv .badState s <|
  check (decide (16 ≤ s.count)) .badLength s <|
  check (s.srcValid s.count && s.dstValid s.count) .badAddress s <|
  let r := body s.xts.twk s.srcBytes
  succeed ((s.setTwk r.2).writeOut r.1)

/-- XTS_ENC (R340). -/
def execXtsEnc (s : State) : Result := xtsCommand (xtsEncrypt s.encrypt) s

/-- XTS_DEC (R341). -/
def execXtsDec (s : State) : Result := xtsCommand (xtsDecrypt s.decrypt) s

end Sys2Proof.Machine
end

