-- ==== Sys2Proof/Machine/Dispatch.lean ====
section
/-! DEFINITION. The meaning of each command: its completion step (R48), with the command latched. -/

namespace Sys2Proof.Machine

def exec (i : Instr) (s : State) : Host.Outcome State Fault Refusal :=
  match i with
  | .nop => Sys2Proof.Machine.execNop s
  | .keyLoad => Sys2Proof.Machine.execKeyLoad s
  | .keyClear => Sys2Proof.Machine.execKeyClear s
  | .ksRead idx => Sys2Proof.Machine.execKsRead idx s
  | .stateRead sel => Sys2Proof.Machine.execStateRead sel s
  | .gf8Mul => Sys2Proof.Machine.execGf8Mul s
  | .sboxFwd => Sys2Proof.Machine.execSboxFwd s
  | .sboxInv => Sys2Proof.Machine.execSboxInv s
  | .gf128Mul => Sys2Proof.Machine.execGf128Mul s
  | .blkEnc => Sys2Proof.Machine.execBlkEnc s
  | .blkDec => Sys2Proof.Machine.execBlkDec s
  | .ecbEnc pad => Sys2Proof.Machine.execEcbEnc pad s
  | .ecbDec pad => Sys2Proof.Machine.execEcbDec pad s
  | .cbcSetiv => Sys2Proof.Machine.execCbcSetiv s
  | .cbcEnc pad => Sys2Proof.Machine.execCbcEnc pad s
  | .cbcDec pad => Sys2Proof.Machine.execCbcDec pad s
  | .ctrSetctr => Sys2Proof.Machine.execCtrSetctr s
  | .ctrXor => Sys2Proof.Machine.execCtrXor s
  | .xtsSettweak => Sys2Proof.Machine.execXtsSettweak s
  | .xexEnc pad => Sys2Proof.Machine.execXexEnc pad s
  | .xexDec pad => Sys2Proof.Machine.execXexDec pad s
  | .xtsEnc => Sys2Proof.Machine.execXtsEnc s
  | .xtsDec => Sys2Proof.Machine.execXtsDec s
  | .ghashInit => Sys2Proof.Machine.execGhashInit s
  | .ghashUpdate => Sys2Proof.Machine.execGhashUpdate s
  | .ghashFinal => Sys2Proof.Machine.execGhashFinal s

end Sys2Proof.Machine
end

