-- ==== Sys2Proof/Machine/HostPort.lean ====
section
/-! DEFINITION. The host's accesses to the register block and to DMEM (10_state.md R30 to R35; 20_memory.md
R83 to R90; 70_reset_and_hazards.md R460). -/

namespace Sys2Proof.Machine

/-- A register access the interface defines: an aligned 32-bit word of the 256-byte register space (R80, R83);
DEDUCED: an offset of 256 or more is none (log 8). -/
def registerAccessOk (offset nbytes : Nat) : Bool := nbytes == 4 && offset % 4 == 0 && decide (offset + 4 ≤ 256)

/-- The next state `t` of a host access, or, in a strict state, the fault `f` where the access breaks the host's
contract: a CMD write or a DMEM access while BUSY = 1 (R405(a) and (b), R460; DESIGN CHOICE, log 7). -/
def State.guardContract (s : State) (needsIdle : Bool) (f : Fault) (t : State) : Result :=
  if s.strict && s.busy && needsIdle then .fault f else .next t

/-- What a register reads as (R30 to R33); reserved offsets read as zero. -/
def State.readRegister (s : State) (offset : Nat) : Word :=
  match offset with
  | 0x00 => Config.idValue
  | 0x04 => s.ctrlWord
  | 0x08 => s.statusWord
  | 0x0C => s.cmd
  | 0x10 => s.src
  | 0x14 => s.dst
  | 0x18 => s.len
  | 0x1C => s.aux
  | 0x20 => s.outlen
  | 0x24 => BitVec.ofNat 32 s.memSize
  | 0x28 => s.ctxInfoWord
  | _ => 0

/-- A host write to CTRL: a soft reset, or IE from bit 0 (R31, R451). -/
def State.writeCtrl (s : State) (v : Word) : State :=
  if v.getLsbD 31 then s.softReset else { s with ie := v.getLsbD 0 }

/-- A host write to CMD: dropped with OVR set while BUSY = 1, which only a state that is not
strict reaches (`State.guardContract`, R405(a)), else an issue (R47, R460(a)). -/
def State.writeCmd (s : State) (v : Word) : State := if s.busy then { s with ovr := true } else s.issue v

/-- A host write to a register (R30 to R35); a write to a read-only or reserved register has no effect. -/
def State.writeRegister (s : State) (offset : Nat) (v : Word) : State :=
  match offset with
  | 0x04 => s.writeCtrl v
  | 0x08 => s.writeStatus v
  | 0x0C => s.writeCmd v
  | 0x10 => { s with src := v }
  | 0x14 => { s with dst := v }
  | 0x18 => { s with len := v }
  | 0x1C => { s with aux := v }
  | _ => s

/-- A DMEM access the interface defines: 8, 16 or 32 bits, naturally aligned, inside DMEM (R84); DEDUCED: no
other width is one (log 8). -/
def State.dmemAccessOk (s : State) (a nbytes : Nat) : Bool :=
  (nbytes == 1 || nbytes == 2 || nbytes == 4) && a % nbytes == 0 && decide (a + nbytes ≤ s.memSize)

/-- A host read of DMEM: little-endian lanes (R84); while BUSY = 1, in a state that is not strict, it
returns 0 and sets OVR (R88, R405(b)). -/
def State.hostReadDmem (s : State) (a nbytes : Nat) : State :=
  if s.busy then { s with ovr := true, busData := some 0 }
  else { s with busData := some (BitVec.ofNat 32 (leNat (s.memRead a nbytes))) }

/-- A host write of DMEM: little-endian lanes (R84); while BUSY = 1, in a state that is not strict,
it is dropped and sets OVR (R88, R405(b)). -/
def State.hostWriteDmem (s : State) (a nbytes : Nat) (v : Word) : State :=
  if s.busy then { s with ovr := true } else s.memWrite a (leBytes nbytes v)

end Sys2Proof.Machine
end

