-- ==== Sys2Proof/Machine/Agents.lean ====
section
/-! DEFINITION. What each of the two agents does when it moves (00_scope.md R4): the core's completion step
(R48) and the host's accesses. -/

namespace Sys2Proof.Machine

/-- Completion of the command in flight: Execute decodes CMDL and runs it; a word that is no command raises
ILLEGAL_CMD (R48, R126, R129). -/
def State.coreStep (s : State) : Result :=
  match decode s.cmdl with
  | .ok i => exec i s
  | .error _ => raiseError .illegalCmd s

/-- The core's turn: it completes the command in flight, and without one it is idle (R48, R434). -/
def State.coreTurn (s : State) : Result := if s.busy then s.coreStep else .next s

/-- One event of the host, already taken off its program. -/
def State.hostStep (s : State) : HostEvent → Result
  | .regWrite offset nbytes v =>
    if registerAccessOk offset nbytes then
      s.guardContract (offset == 0x0C) (.cmdWriteWhileBusy v) (s.writeRegister offset v)
    else .fault (.registerBusError offset nbytes)
  | .regRead offset nbytes =>
    if registerAccessOk offset nbytes then .next { s with busData := some (s.readRegister offset) }
    else .fault (.registerBusError offset nbytes)
  | .dmemWrite a nbytes v =>
    if s.dmemAccessOk a nbytes then s.guardContract true (.dmemAccessWhileBusy a nbytes) (s.hostWriteDmem a nbytes v)
    else .fault (.dmemBusError a nbytes)
  | .dmemRead a nbytes =>
    if s.dmemAccessOk a nbytes then s.guardContract true (.dmemAccessWhileBusy a nbytes) (s.hostReadDmem a nbytes)
    else .fault (.dmemBusError a nbytes)
  | .wait => s.coreTurn
  | .powerOn => .next s.powerCycle

/-- The command word placed as the one in flight: the issue of R47 from the live operand registers, with the
core to move next. -/
def State.placeCommand (s : State) (w : Word) : State := { s.issue w with host := .wait :: s.host }

end Sys2Proof.Machine
end

