-- ==== Sys2Proof/Machine/Step.lean ====
section
/-! DEFINITION. One step of the machine: the next event of the host, or the core's turn when the host has
none left (00_scope.md R4; 10_state.md R48; 70_reset_and_hazards.md R470). -/

namespace Sys2Proof.Machine

/-- One step. -/
def step (s : State) : Host.Outcome State Fault Refusal :=
  match s.host with
  | [] => s.coreTurn
  | e :: rest => State.hostStep { s with host := rest } e

/-- The state whose very next step runs the command word `w` (log 6). -/
def State.withFetchWord (s : State) (nbits w : Nat) : State :=
  s.placeCommand (BitVec.ofNat 32 (w % 2 ^ nbits))

end Sys2Proof.Machine
end

