-- ==== Sys2Proof/Machine/HostProgram.lean ====
section
/-! DEFINITION. The host programs of 30_encoding.md R130 and R131 as host events: the host primitives, the
command statement and the pseudo-instructions. -/

namespace Sys2Proof.Machine

/-- `mw <addr>, <bytes>`: byte-wide writes in ascending address order (R130). -/
def mwEvents : Nat → List Byte → List HostEvent
  | _, [] => []
  | a, x :: rest => .dmemWrite a 1 (x.setWidth 32) :: mwEvents (a + 1) rest

/-- `mr <addr>, <n>`: byte-wide reads (R130; PRESUMED, log 13). -/
def mrEvents (a n : Nat) : List HostEvent := (List.range n).map fun i => .dmemRead (a + i) 1

/-- `.word <imm32>`: a raw command word, then a wait (R130). -/
def wordEvents (w : Word) : List HostEvent := [.regWrite 0x0C 4 w, .wait]

/-- An optional operand write of a command statement (R130). -/
def operandEvent (offset : Nat) : Option Word → List HostEvent
  | none => []
  | some v => [.regWrite offset 4 v]

/-- A command statement: the operands named, in the order src, dst, len, aux, then the command word and a
wait; an operand not named keeps its register's value (R130). -/
def commandEvents (i : Instr) (src dst len aux : Option Word) : List HostEvent :=
  operandEvent 0x10 src ++ operandEvent 0x14 dst ++ operandEvent 0x18 len ++ operandEvent 0x1C aux ++
    wordEvents (encode i)

/-- `CTR_ENC`, which is CTR_XOR (R131). -/
def ctrEncEvents (src dst len : Word) : List HostEvent := commandEvents .ctrXor (some src) (some dst) (some len) none

/-- `CTR_DEC`, which is CTR_XOR (R131). -/
def ctrDecEvents (src dst len : Word) : List HostEvent := commandEvents .ctrXor (some src) (some dst) (some len) none

/-- `XTS_INIT` (R131): key2, the tweak under it, then key1. -/
def xtsInitEvents (k1 k2 seed klen : Word) : List HostEvent :=
  commandEvents .keyLoad (some k2) none (some klen) none ++
  commandEvents .xtsSettweak (some seed) none none none ++
  commandEvents .keyLoad (some k1) none (some klen) none

/-- `GHASH_ALL` (R131). -/
def ghashAllEvents (h aad alen data dlen dst : Word) : List HostEvent :=
  commandEvents .ghashInit (some h) none (some alen) (some aad) ++
  commandEvents .ghashUpdate (some data) none (some dlen) none ++
  commandEvents .ghashFinal none (some dst) none none

end Sys2Proof.Machine
end

