-- ==== Sys2Proof/Safety.lean ====
section
/-! DEFINITION. The terms in which claims are stated: the invariant of the machine, the host's contract, what
a command leaves behind, and the error table. -/

namespace Sys2Proof.Machine

/-! ## The invariant -/

/-- R364: the bytes of KSBUF before the leftover keystream are zero. (KSLEN is at most 15 by its width.) -/
def CtrContext.Inv (c : CtrContext) : Prop := ∀ i, i < 16 - c.kslen.toNat → c.ksbuf.get i = 0

/-- R381: the bytes of GH_BUF after the partial block are zero. (GH_BLEN is at most 15 by its width.) -/
def GhashContext.Inv (g : GhashContext) : Prop := ∀ i, g.blen.toNat ≤ i → i < 16 → g.buf.get i = 0

/-- R38: what the round key file holds, by KEYV. -/
def State.KeyInv (s : State) : Prop :=
  (s.keyv = true → ∃ key : List Byte, key.length = s.ksz.bytes ∧ s.rk = roundKeyFile (keyExpansion key)) ∧
  (s.keyv = false → s.rk = List.replicate 15 Block.zero ∧ s.ksz = .bytes16)

/-- DMEM is in canonical form and lies inside the address space (R80). -/
def State.DmemInv (s : State) : Prop := Memory.wf s.dmem ∧ ∀ c ∈ s.dmem, c.1 < s.memSize

/-- R47, R48: what STATUS, OUTLEN and CMD hold while a command is in flight; that OUTLEN and ERR are 0 is the
DESIGN CHOICE of log 16. -/
def State.FlightInv (s : State) : Prop :=
  s.busy = true → s.done = false ∧ s.err = .ok ∧ s.outlen = 0 ∧ s.cmdl = s.cmd

/-- R50: a context that has not been loaded since the last reset holds its reset value. -/
def State.UnloadedInv (s : State) : Prop :=
  (s.cbc.cbcv = false → s.cbc.cv = Block.zero) ∧
  (s.ctr.ctrv = false → s.ctr.cnt = Block.zero ∧ s.ctr.ksbuf = Block.zero ∧ s.ctr.kslen = 0) ∧
  (s.xts.xtsv = false → s.xts.twk = Block.zero) ∧
  (s.ghash.ghph = .none → s.ghash = (State.resetOf s.memSize s.epoch).ghash)

/-- The invariant of the machine. -/
structure State.Inv (s : State) : Prop where
  memSizeLegal : Config.memSizeMin ≤ s.memSize ∧ s.memSize ≤ Config.memSizeMax
  dmem : s.DmemInv
  key : s.KeyInv
  flight : s.FlightInv
  unloaded : s.UnloadedInv
  ctr : s.ctr.Inv
  ghash : s.ghash.Inv

/-! ## The host's contract -/

/-- The host's next event breaks the contract while a command is in flight: a CMD write, or an access to
DMEM (R460(a), (b)). -/
def State.breaksContract (s : State) : Bool :=
  s.busy &&
    match s.host with
    | .regWrite 0x0C _ _ :: _ => true
    | .dmemWrite _ _ _ :: _ => true
    | .dmemRead _ _ :: _ => true
    | _ => false

/-- The next `k` steps are safe: none breaks the contract and none is a bus error (R405). -/
def safeRun : Nat → State → Bool
  | 0, _ => true
  | k + 1, s =>
    !s.breaksContract &&
      match step s with
      | .next t => safeRun k t
      | .fault _ => false
      | .refused _ => false

/-! ## Words that are no command -/

/-- The list of R129, on a word's number: an unassigned OP, a reserved bit, a reserved or untaken PAD, an
untaken IDX, or a reserved selector. -/
def illegalWord (w : Word) : Prop :=
  let op := w.toNat % 256
  let pad := w.toNat / 256 % 4
  let idx := w.toNat / 65536 % 16
  let takesPad := op = 0x20 ∨ op = 0x21 ∨ op = 0x29 ∨ op = 0x2A ∨ op = 0x39 ∨ op = 0x3A
  (0x09 ≤ op ∧ op ≤ 0x0F) ∨ (0x12 ≤ op ∧ op ≤ 0x1F) ∨ (0x22 ≤ op ∧ op ≤ 0x27) ∨ (0x2B ≤ op ∧ op ≤ 0x2F) ∨
  (0x32 ≤ op ∧ op ≤ 0x37) ∨ (0x3D ≤ op ∧ op ≤ 0x3F) ∨ 0x43 ≤ op ∨
  w.toNat / 1048576 ≠ 0 ∨ w.toNat / 1024 % 64 ≠ 0 ∨
  (takesPad ∧ 2 ≤ pad) ∨ (¬takesPad ∧ pad ≠ 0) ∨
  (op ≠ 3 ∧ op ≠ 4 ∧ idx ≠ 0) ∨ (op = 4 ∧ 8 ≤ idx)

/-! ## What a command leaves behind -/

/-- Every DMEM byte reads in `t` as in `s`. -/
def dmemKept (s t : State) : Prop := ∀ x, t.dmemByte x = s.dmemByte x

/-- The string `v` stands at DMEM address `a` in `t`, and every other DMEM byte reads as in `s`. -/
def dmemWritten (s t : State) (a : Nat) (v : List Byte) : Prop :=
  (∀ i, i < v.length → t.dmemByte (a + i) = v.getD i 0) ∧
  ∀ x, x < a ∨ a + v.length ≤ x → t.dmemByte x = s.dmemByte x

/-- STATUS after a command that succeeded (R48). -/
def succeeded (t : State) : Prop := t.err = .ok ∧ t.busy = false ∧ t.done = true

/-- `t` is `s` with the string `v` written at DSTL, OUTLEN its length and the command completed without an
error; every other field is as in `s`. -/
def outputs (s t : State) (v : List Byte) : Prop :=
  succeeded t ∧ t.outlen = BitVec.ofNat 32 v.length ∧ dmemWritten s t s.dstAddr v ∧
  t = { s with dmem := t.dmem, outlen := t.outlen, err := t.err, busy := t.busy, done := t.done }

/-- The contexts of the modes are the same (R46). -/
def sameContexts (s t : State) : Prop := t.cbc = s.cbc ∧ t.ctr = s.ctr ∧ t.xts = s.xts ∧ t.ghash = s.ghash

/-- The round key file and its status are the same (R38). -/
def sameKey (s t : State) : Prop := t.rk = s.rk ∧ t.keyv = s.keyv ∧ t.ksz = s.ksz

/-- What no command writes is the same: CTRL.IE, OVR, CMD, the operand registers, the latches, MEM_SIZE and
the host's side (R34, R35, R37). -/
def sameHostSide (s t : State) : Prop :=
  t.ie = s.ie ∧ t.ovr = s.ovr ∧ t.cmd = s.cmd ∧ t.src = s.src ∧ t.dst = s.dst ∧ t.len = s.len ∧ t.aux = s.aux ∧
  t.cmdl = s.cmdl ∧ t.srcl = s.srcl ∧ t.dstl = s.dstl ∧ t.lenl = s.lenl ∧ t.auxl = s.auxl ∧
  t.memSize = s.memSize ∧ t.strict = s.strict ∧ t.epoch = s.epoch ∧ t.host = s.host ∧ t.busData = s.busData

/-- A result with a function applied to its next state. -/
def mapNext (f : State → State) : Result → Result
  | .next t => .next (f t)
  | .fault r => .fault r
  | .refused r => .refused r

/-! ## The errors and the readiness of the block modes -/

/-- The errors of an encrypting block-mode command, in order; `loaded` says that its context is (R303, R403). -/
def encryptingErrors (i : Instr) (p : Pad) (loaded : Bool) (s : State) : Prop :=
  (s.keyv = false → exec i s = .next (s.complete .noKey)) ∧
  (s.keyv = true → loaded = false → exec i s = .next (s.complete .badState)) ∧
  (s.keyv = true → loaded = true → p = .noPad → s.count % 16 ≠ 0 → exec i s = .next (s.complete .badLength)) ∧
  (s.keyv = true → loaded = true → (p = .noPad → s.count % 16 = 0) →
    s.srcValid s.count = false ∨ s.dstValid (paddedLength p s.count) = false →
    exec i s = .next (s.complete .badAddress))

/-- None of those errors is there. -/
def encryptingReady (p : Pad) (loaded : Bool) (s : State) : Prop :=
  s.keyv = true ∧ loaded = true ∧ (p = .noPad → s.count % 16 = 0) ∧ s.srcValid s.count = true ∧
  s.dstValid (paddedLength p s.count) = true

/-- The errors of a decrypting block-mode command before its first block, in order (R304, R403). -/
def decryptingErrors (i : Instr) (loaded : Bool) (s : State) : Prop :=
  (s.keyv = false → exec i s = .next (s.complete .noKey)) ∧
  (s.keyv = true → loaded = false → exec i s = .next (s.complete .badState)) ∧
  (s.keyv = true → loaded = true → s.srcValid s.count = false ∨ s.dstValid s.count = false →
    exec i s = .next (s.complete .badAddress)) ∧
  (s.keyv = true → loaded = true → s.srcValid s.count = true → s.dstValid s.count = true → s.count % 16 ≠ 0 →
    exec i s = .next (s.complete .padBadData))

/-- None of those errors is there. -/
def decryptingReady (loaded : Bool) (s : State) : Prop :=
  s.keyv = true ∧ loaded = true ∧ s.srcValid s.count = true ∧ s.dstValid s.count = true ∧ s.count % 16 = 0

/-- The end of a decrypting command whose blocks decrypt to `ps`, with `u` the state after the mode's update:
the unpadded plaintext is written, or PAD_BAD_PADDING keeps the update and writes nothing (R305). -/
def decryptsTo (i : Instr) (p : Pad) (s u : State) (ps : List Byte) : Prop :=
  (∀ d, unpadBytes p ps = .ok d → ∃ t, exec i s = .next t ∧ outputs u t d) ∧
  (∀ e, unpadBytes p ps = .error e → exec i s = .next (u.complete .padBadPadding))

/-- The errors of XTS_ENC and XTS_DEC, in order (R340, R341, R403). -/
def xtsErrors (i : Instr) (s : State) : Prop :=
  (s.keyv = false → exec i s = .next (s.complete .noKey)) ∧
  (s.keyv = true → s.xts.xtsv = false → exec i s = .next (s.complete .badState)) ∧
  (s.keyv = true → s.xts.xtsv = true → s.count < 16 → exec i s = .next (s.complete .badLength)) ∧
  (s.keyv = true → s.xts.xtsv = true → 16 ≤ s.count → s.srcValid s.count = false ∨ s.dstValid s.count = false →
    exec i s = .next (s.complete .badAddress))

/-- None of those errors is there. -/
def xtsReady (s : State) : Prop :=
  s.keyv = true ∧ s.xts.xtsv = true ∧ 16 ≤ s.count ∧ s.srcValid s.count = true ∧ s.dstValid s.count = true

/-- An encrypting command and the command that reverses it (R343). -/
def reverses (p : Pad) (enc dec : Instr) : Prop :=
  (enc = .ecbEnc p.field ∧ dec = .ecbDec p.field) ∨ (enc = .cbcEnc p.field ∧ dec = .cbcDec p.field) ∨
  (enc = .xexEnc p.field ∧ dec = .xexDec p.field) ∨ (enc = .xtsEnc ∧ dec = .xtsDec)

/-! ## Which operand registers a command uses (R125) -/

/-- The commands that do not use SRC. -/
def ignoresSrc (i : Instr) : Prop :=
  i = .nop ∨ i = .keyClear ∨ (∃ r, i = .ksRead r) ∨ (∃ r, i = .stateRead r) ∨ i = .ghashFinal

/-- The commands that do not use DST. -/
def ignoresDst (i : Instr) : Prop :=
  i = .nop ∨ i = .keyLoad ∨ i = .keyClear ∨ i = .cbcSetiv ∨ i = .ctrSetctr ∨ i = .xtsSettweak ∨
  i = .ghashInit ∨ i = .ghashUpdate

/-- The commands that do not use LEN. -/
def ignoresLen (i : Instr) : Prop :=
  i = .nop ∨ i = .keyClear ∨ (∃ r, i = .ksRead r) ∨ (∃ r, i = .stateRead r) ∨ i = .gf128Mul ∨ i = .cbcSetiv ∨
  i = .ctrSetctr ∨ i = .xtsSettweak ∨ i = .ghashFinal

/-- The commands that do not use AUX: all but three. -/
def ignoresAux (i : Instr) : Prop := i ≠ .gf8Mul ∧ i ≠ .gf128Mul ∧ i ≠ .ghashInit

/-! ## The keystream -/

/-- `inc^k(c)` (R363). -/
def incIter : Nat → Block → Block
  | 0, c => c
  | k + 1, c => incIter k (incCounter c)

/-- Byte `i` of the keystream that context `c` is about to give: its leftover bytes, then
`E(CNT) || E(inc(CNT)) || …` (R363, R364). -/
def keystreamByte (enc : Block → Block) (c : CtrContext) (i : Nat) : Byte :=
  if i < c.kslen.toNat then c.ksbuf.get (16 - c.kslen.toNat + i)
  else (enc (incIter ((i - c.kslen.toNat) / 16) c.cnt)).get ((i - c.kslen.toNat) % 16)

/-! ## The error table -/

/-- The DMEM ranges a command reads or writes, as an address and a length (R125). -/
def commandRanges (i : Instr) (s : State) : List (Nat × Nat) :=
  match i with
  | .nop => []
  | .keyLoad => [(s.srcAddr, s.count)]
  | .keyClear => []
  | .ksRead _ => [(s.dstAddr, 16)]
  | .stateRead _ => [(s.dstAddr, 16)]
  | .gf8Mul => [(s.srcAddr, s.count), (s.auxAddr, s.count), (s.dstAddr, s.count)]
  | .sboxFwd => [(s.srcAddr, s.count), (s.dstAddr, s.count)]
  | .sboxInv => [(s.srcAddr, s.count), (s.dstAddr, s.count)]
  | .gf128Mul => [(s.srcAddr, 16), (s.auxAddr, 16), (s.dstAddr, 16)]
  | .blkEnc => [(s.srcAddr, 16), (s.dstAddr, 16)]
  | .blkDec => [(s.srcAddr, 16), (s.dstAddr, 16)]
  | .ecbEnc pad => [(s.srcAddr, s.count), (s.dstAddr, if pad = 1 then s.count + padCount s.count else s.count)]
  | .ecbDec _ => [(s.srcAddr, s.count), (s.dstAddr, s.count)]
  | .cbcSetiv => [(s.srcAddr, 16)]
  | .cbcEnc pad => [(s.srcAddr, s.count), (s.dstAddr, if pad = 1 then s.count + padCount s.count else s.count)]
  | .cbcDec _ => [(s.srcAddr, s.count), (s.dstAddr, s.count)]
  | .ctrSetctr => [(s.srcAddr, 16)]
  | .ctrXor => [(s.srcAddr, s.count), (s.dstAddr, s.count)]
  | .xtsSettweak => [(s.srcAddr, 16)]
  | .xexEnc pad => [(s.srcAddr, s.count), (s.dstAddr, if pad = 1 then s.count + padCount s.count else s.count)]
  | .xexDec _ => [(s.srcAddr, s.count), (s.dstAddr, s.count)]
  | .xtsEnc => [(s.srcAddr, s.count), (s.dstAddr, s.count)]
  | .xtsDec => [(s.srcAddr, s.count), (s.dstAddr, s.count)]
  | .ghashInit => [(s.srcAddr, 16), (s.auxAddr, s.count)]
  | .ghashUpdate => [(s.srcAddr, s.count)]
  | .ghashFinal => [(s.dstAddr, 16)]

/-- The cause column of the error table (R400): when the cause of a code is there for a command. -/
def errorApplies (i : Instr) (s : State) : ErrCode → Prop
  | .ok => False
  | .illegalCmd => i.wellFormed = false
  | .noKey => i.needsKey = true ∧ s.keyv = false
  | .badState =>
    ((∃ pad, i = .cbcEnc pad ∨ i = .cbcDec pad) ∧ s.cbc.cbcv = false) ∨
    (i = .ctrXor ∧ s.ctr.ctrv = false) ∨
    (((∃ pad, i = .xexEnc pad ∨ i = .xexDec pad) ∨ i = .xtsEnc ∨ i = .xtsDec) ∧ s.xts.xtsv = false) ∨
    ((i = .ghashUpdate ∨ i = .ghashFinal) ∧ s.ghash.ghph ≠ .active)
  | .badIndex => ∃ idx, i = .ksRead idx ∧ s.ksz.rounds < idx.toNat
  | .badLength =>
    (i = .keyLoad ∧ s.count ≠ 16 ∧ s.count ≠ 24 ∧ s.count ≠ 32) ∨
    ((i = .blkEnc ∨ i = .blkDec) ∧ s.count ≠ 16) ∨
    ((i = .ecbEnc 0 ∨ i = .cbcEnc 0 ∨ i = .xexEnc 0) ∧ s.count % 16 ≠ 0) ∨
    ((i = .xtsEnc ∨ i = .xtsDec) ∧ s.count < 16)
  | .badAddress => ∃ r ∈ commandRanges i s, r.2 ≠ 0 ∧ s.memSize < r.1 + r.2
  | .padBadData => (∃ pad, i = .ecbDec pad ∨ i = .cbcDec pad ∨ i = .xexDec pad) ∧ s.count % 16 ≠ 0
  | .padBadPadding =>
    (i = .ecbDec 1 ∧ unpad1 (bytesOf ((blocksOf s.srcBytes).map s.decrypt)) = .error .padBadPadding) ∨
    (i = .cbcDec 1 ∧
      unpad1 (bytesOf (cbcDecrypt s.decrypt s.cbc.cv (blocksOf s.srcBytes)).1) = .error .padBadPadding) ∨
    (i = .xexDec 1 ∧
      unpad1 (bytesOf (xexBlocks s.decrypt s.xts.twk (blocksOf s.srcBytes)).1) = .error .padBadPadding)

end Sys2Proof.Machine
end

