-- ==== Sys2Proof/Certificates/Slice0/Obligations.lean ====
section
/-! DEFINITION. The statements for the provers. Where a statement reads a byte after a write, DMEM is in its
canonical form (`Memory.wf`), which every step keeps. -/

open Sys2Proof Sys2Proof.Machine

/-! ## Encoding -/

/-- R120, R128: the word of a well-formed command decodes to that command. -/
def Obligations.DecodeOfEncodedCommandIsTheCommand : Prop :=
  ∀ i : Instr, i.wellFormed = true → decode (encode i) = .ok i

/-- R121, R126: a word that decodes is the word of the command it decodes to, so no bit of it is dropped. -/
def Obligations.EncodeOfDecodedWordIsTheWord : Prop :=
  ∀ (w : Word) (i : Instr), decode w = .ok i → encode i = w ∧ i.wellFormed = true

/-- R128: words written out from the opcode map and the fields, one of each family. -/
def Obligations.SpecWordsDecodeToTheirCommands : Prop :=
  decode 0x00000000#32 = .ok .nop ∧ decode 0x00000001#32 = .ok .keyLoad ∧
  decode 0x000A0003#32 = .ok (.ksRead 10) ∧ decode 0x00070004#32 = .ok (.stateRead 7) ∧
  decode 0x00000008#32 = .ok .gf128Mul ∧ decode 0x00000010#32 = .ok .blkEnc ∧
  decode 0x00000120#32 = .ok (.ecbEnc 1) ∧ decode 0x0000012A#32 = .ok (.cbcDec 1) ∧
  decode 0x00000031#32 = .ok .ctrXor ∧ decode 0x00000139#32 = .ok (.xexEnc 1) ∧
  decode 0x0000003C#32 = .ok .xtsDec ∧ decode 0x00000042#32 = .ok .ghashFinal

/-- R126, R129: the words rejected are those R129 lists, and such a word completes with ILLEGAL_CMD, changing
nothing but STATUS; with IE = 1 it raises the interrupt. -/
def Obligations.IllegalWordsCompleteWithIllegalCmd : Prop :=
  (∀ w : Word, (∃ e, decode w = .error e) ↔ illegalWord w) ∧
  ∀ s : State, s.busy = true → illegalWord s.cmdl →
    ∃ t, s.coreTurn = .next t ∧ t = { s with err := .illegalCmd, busy := false, done := true } ∧ t.irq = s.ie

/-! ## The step and the host's side -/

/-- R48, R434; the form of the host's program is the model's (log 4). What a step adds around `exec`. With a command in flight and the core to move, the step is
`exec` of the decoded command, after the host's wait (if any) is taken off its program; with none in flight the
core is idle. -/
def Obligations.StepRunsTheDecodedCommand : Prop :=
  ∀ s : State,
    (∀ i, s.busy = true → decode s.cmdl = .ok i →
      (s.host = [] → step s = exec i s) ∧
      (∀ rest, s.host = .wait :: rest → step s = exec i { s with host := rest })) ∧
    (s.busy = false →
      (s.host = [] → step s = .next s) ∧ (∀ rest, s.host = .wait :: rest → step s = .next { s with host := rest }))

/-- From R47 and R405(a): a CMD write issues the command; while BUSY = 1 it is a fault of the host in a strict state,
and else is dropped with OVR set. The model's: the field `strict`, which selects between the fault of R405 and the
outcome of R47 (DESIGN CHOICE, log 7); that OUTLEN is cleared at issue (DESIGN CHOICE, log 16); the event form (log 4). -/
def Obligations.CmdWriteIssuesOrIsDropped : Prop :=
  ∀ (s : State) (w : Word) (rest : List HostEvent), s.host = .regWrite 0x0C 4 w :: rest →
    (s.busy = true → s.strict = true → step s = .fault (.cmdWriteWhileBusy w)) ∧
    (s.busy = true → s.strict = false → step s = .next { s with host := rest, ovr := true }) ∧
    (s.busy = false → ∃ t, step s = .next t ∧
      t.cmd = w ∧ t.cmdl = w ∧ t.srcl = s.src ∧ t.dstl = s.dst ∧ t.lenl = s.len ∧ t.auxl = s.aux ∧
      t.busy = true ∧ t.done = false ∧ t.err = .ok ∧ t.outlen = 0 ∧
      t = { s with host := rest, cmd := t.cmd, cmdl := t.cmdl, srcl := t.srcl, dstl := t.dstl, lenl := t.lenl,
                   auxl := t.auxl, busy := t.busy, done := t.done, err := t.err, outlen := t.outlen })

/-- From R84: host DMEM accesses with BUSY = 0, with the little-endian lanes, and the bus errors. The model's: which
widths are bus errors (DEDUCED, log 8); the event form and the data read (log 4, 5). -/
def Obligations.HostDmemAccessesAreLittleEndian : Prop :=
  ∀ (s : State) (a n : Nat) (v : Word) (rest : List HostEvent), Memory.wf s.dmem → s.busy = false →
    ((n = 1 ∨ n = 2 ∨ n = 4) → a % n = 0 → a + n ≤ s.memSize →
      (s.host = .dmemWrite a n v :: rest → ∃ t, step s = .next t ∧ t = { s with host := rest, dmem := t.dmem } ∧
        (∀ i, i < n → (t.dmemByte (a + i)).toNat = v.toNat / 256 ^ i % 256) ∧
        ∀ x, x < a ∨ a + n ≤ x → t.dmemByte x = s.dmemByte x) ∧
      (s.host = .dmemRead a n :: rest → ∃ r : Word,
        r.toNat = ((List.range n).map fun i => (s.dmemByte (a + i)).toNat * 256 ^ i).sum ∧
        step s = .next { s with host := rest, busData := some r })) ∧
    (¬((n = 1 ∨ n = 2 ∨ n = 4) ∧ a % n = 0 ∧ a + n ≤ s.memSize) →
      (s.host = .dmemWrite a n v :: rest → step s = .fault (.dmemBusError a n)) ∧
      (s.host = .dmemRead a n :: rest → step s = .fault (.dmemBusError a n)))

/-- From R88 and R405(b): a legal DMEM access while BUSY = 1 is a fault of the host in a strict state, and else does not
reach DMEM. The model's: the field `strict`, which selects between the two outcomes R88 gives (DESIGN CHOICE, log 7); the
event form and the data read (log 4, 5). -/
def Obligations.DmemAccessWhileBusyIsDropped : Prop :=
  ∀ (s : State) (a n : Nat) (v : Word) (rest : List HostEvent), s.busy = true → s.dmemAccessOk a n = true →
    (s.strict = true → s.host = .dmemWrite a n v :: rest ∨ s.host = .dmemRead a n :: rest →
      step s = .fault (.dmemAccessWhileBusy a n)) ∧
    (s.strict = false →
      (s.host = .dmemWrite a n v :: rest → step s = .next { s with host := rest, ovr := true }) ∧
      (s.host = .dmemRead a n :: rest → step s = .next { s with host := rest, ovr := true, busData := some 0 }))

/-- From R83, R84 and R405: a step stops exactly on an event of R405, under its name: a bus error of the host, or in a
strict state a CMD write or a DMEM access while BUSY = 1; it is never refused, and no command stops. In a strict state a
run is safe exactly when it goes on, and a safe run is the same strict or not. The model's: the field `strict` (DESIGN
CHOICE, log 7); the widths and the precedence of a bus error (DEDUCED, log 8); the event form (log 4). -/
def Obligations.OnlyHostErrorsStopTheMachine : Prop :=
  (∀ (s : State) (f : Fault), step s = .fault f ↔
    ∃ e rest, s.host = e :: rest ∧
      ((∃ o n, ((∃ v, e = .regWrite o n v) ∨ e = .regRead o n) ∧ ¬(n = 4 ∧ o % 4 = 0 ∧ o < 256) ∧
          f = .registerBusError o n) ∨
       (∃ a n, ((∃ v, e = .dmemWrite a n v) ∨ e = .dmemRead a n) ∧
          ((¬((n = 1 ∨ n = 2 ∨ n = 4) ∧ a % n = 0 ∧ a + n ≤ s.memSize) ∧ f = .dmemBusError a n) ∨
           (((n = 1 ∨ n = 2 ∨ n = 4) ∧ a % n = 0 ∧ a + n ≤ s.memSize) ∧ s.strict = true ∧ s.busy = true ∧
              f = .dmemAccessWhileBusy a n))) ∨
       (∃ v, e = .regWrite 0x0C 4 v ∧ s.strict = true ∧ s.busy = true ∧ f = .cmdWriteWhileBusy v))) ∧
  (∀ (s : State) (r : Refusal), step s ≠ .refused r) ∧
  (∀ (i : Instr) (s : State) (f : Fault), exec i s ≠ .fault f) ∧
  (∀ (k : Nat) (s : State), s.strict = true → (safeRun k s = true ↔ ∃ t, Sys2Proof.core.run k s = .next t)) ∧
  ∀ (k : Nat) (s : State) (b : Bool), safeRun k s = true → ∃ t : State, Sys2Proof.core.run k s = .next t ∧
    Sys2Proof.core.run k { s with strict := b } = .next { t with strict := b }

/-- From R32, R405 and R460: OVR becomes 1 exactly when the host breaks its contract and the step goes on, which is in
a state that is not strict, and stays 1 until a STATUS write of 1 to bit 2, or a reset. The model's: the field `strict`
(DESIGN CHOICE, log 7); the event form and the power cycle (log 4, 10). -/
def Obligations.OvrRecordsContractBreaches : Prop :=
  ∀ s t : State, step s = .next t →
    (s.breaksContract = true → t.ovr = true ∧ s.strict = false) ∧
    (s.breaksContract = false → t.ovr = true → s.ovr = true) ∧
    (s.ovr = true → t.ovr = true ∨ ∃ rest, s.host = .powerOn :: rest ∨
      (∃ v, v.getLsbD 2 = true ∧ s.host = .regWrite 0x08 4 v :: rest) ∨
      (∃ v, v.getLsbD 31 = true ∧ s.host = .regWrite 0x04 4 v :: rest)) ∧
    t.strict = s.strict

/-- R30, R31, R34: the register map: that a host access to an aligned offset below 256 reads or writes the register
there and does nothing else, what each offset reads as, and that a write to a read-only or reserved offset has no
effect, while an operand register takes the word written. A CMD write while BUSY = 1 in a strict state is the fault of
R405 instead (log 7). The event form and the data read are the model's (log 4, 5). -/
def Obligations.RegisterMapReadsAndWrites : Prop :=
  ∀ (s : State) (v : Word),
    (∀ (o : Nat) (rest : List HostEvent), o % 4 = 0 → o < 256 →
      (s.host = .regRead o 4 :: rest →
        step s = .next { s with host := rest, busData := some (s.readRegister o) }) ∧
      (s.host = .regWrite o 4 v :: rest → (o = 0x0C → s.busy = true → s.strict = false) →
        step s = .next (State.writeRegister { s with host := rest } o v))) ∧
    s.readRegister 0x00 = 0x41455301#32 ∧
    (s.readRegister 0x04).getLsbD 0 = s.ie ∧ (s.readRegister 0x04).extractLsb' 1 31 = 0 ∧
    s.readRegister 0x0C = s.cmd ∧ s.readRegister 0x20 = s.outlen ∧
    (s.memSize ≤ Config.memSizeMax → (s.readRegister 0x24).toNat = s.memSize) ∧
    (∀ o, 0x2C ≤ o → o ≤ 0xFC → o % 4 = 0 → s.readRegister o = 0 ∧ s.writeRegister o v = s) ∧
    s.writeRegister 0x00 v = s ∧ s.writeRegister 0x20 v = s ∧ s.writeRegister 0x24 v = s ∧
    s.writeRegister 0x28 v = s ∧
    s.writeRegister 0x10 v = { s with src := v } ∧ (s.writeRegister 0x10 v).readRegister 0x10 = v ∧
    s.writeRegister 0x14 v = { s with dst := v } ∧ (s.writeRegister 0x14 v).readRegister 0x14 = v ∧
    s.writeRegister 0x18 v = { s with len := v } ∧ (s.writeRegister 0x18 v).readRegister 0x18 = v ∧
    s.writeRegister 0x1C v = { s with aux := v } ∧ (s.writeRegister 0x1C v).readRegister 0x1C = v ∧
    (v.getLsbD 31 = false → s.writeRegister 0x04 v = { s with ie := v.getLsbD 0 })

/-- R32, R400: the fields of STATUS with the numbers of their values, and what a STATUS write changes. -/
def Obligations.StatusFieldsReadAndClear : Prop :=
  ∀ (s : State) (v : Word),
    (let w := s.readRegister 0x08
     w.getLsbD 0 = s.busy ∧ w.getLsbD 1 = s.done ∧ w.getLsbD 2 = s.ovr ∧ w.getLsbD 3 = s.keyv ∧
     w.extractLsb' 4 2 = s.ksz.code ∧
     s.ksz.code = (match s.ksz with | .bytes16 => 0#2 | .bytes24 => 1#2 | .bytes32 => 2#2) ∧
     w.getLsbD 6 = s.cbc.cbcv ∧ w.getLsbD 7 = s.ctr.ctrv ∧
     w.getLsbD 8 = s.xts.xtsv ∧
     w.extractLsb' 9 2 = (match s.ghash.ghph with | .none => 0#2 | .active => 1#2 | .final => 2#2) ∧
     w.extractLsb' 11 5 = 0 ∧ w.extractLsb' 16 8 = s.err.code ∧
     s.err.code = (match s.err with
       | .ok => 0#8 | .illegalCmd => 1#8 | .noKey => 2#8 | .badState => 3#8 | .badIndex => 4#8 | .badLength => 5#8
       | .badAddress => 6#8 | .padBadData => 7#8 | .padBadPadding => 8#8) ∧
     w.extractLsb' 24 8 = 0) ∧
    (∃ t, t = s.writeRegister 0x08 v ∧ t = { s with done := t.done, ovr := t.ovr } ∧
     t.done = (s.done && !v.getLsbD 1) ∧ t.ovr = (s.ovr && !v.getLsbD 2))

/-- R33: the fields of CTXINFO, all read-only. -/
def Obligations.CtxInfoFieldsRead : Prop :=
  ∀ (s : State) (v : Word),
    (s.readRegister 0x28).extractLsb' 0 4 = s.ctr.kslen ∧
    (s.readRegister 0x28).extractLsb' 4 4 = s.ghash.blen ∧
    (s.readRegister 0x28).extractLsb' 8 4 = (if s.keyv = true then
      (match s.ksz with | .bytes16 => 10#4 | .bytes24 => 12#4 | .bytes32 => 14#4) else 0#4) ∧
    (s.readRegister 0x28).extractLsb' 12 20 = 0 ∧ s.writeRegister 0x28 v = s

/-- R410: IRQ follows completion. -/
def Obligations.IrqFollowsCompletionAndEnable : Prop :=
  (∀ s : State, s.irq = true ↔ s.ie = true ∧ s.done = true) ∧
  (∀ (i : Instr) (s t : State), exec i s = .next t → t.irq = s.ie) ∧
  ∀ (s : State) (v : Word),
    (s.busy = false → (s.writeRegister 0x0C v).irq = false) ∧
    (v.getLsbD 1 = true → (s.writeRegister 0x08 v).irq = false) ∧
    (v.getLsbD 31 = true → (s.writeRegister 0x04 v).irq = false) ∧
    (v.getLsbD 31 = false → (s.writeRegister 0x04 v).irq = (v.getLsbD 0 && s.done))

/-! ## Reset and the invariant -/

/-- R50, R434, R450: the reset value of every piece of state, that the reset state meets the invariant, and that a
power cycle gives the reset state with DMEM unspecified anew. The DMEM size, the fields `strict`, `epoch`, `host` and
`busData`, the free value of an unwritten byte and the event of the power cycle are the model's (log 1, 2, 4, 5, 7,
10). -/
def Obligations.ResetValuesMeetTheInvariant : Prop :=
  (∀ (s : State) (rest : List HostEvent), s.host = .powerOn :: rest → ∃ t, step s = .next t ∧
    t = { State.resetOf s.memSize (s.epoch + 1) with strict := s.strict, host := rest, busData := s.busData } ∧
    ∀ x, t.dmemByte x = Config.powerOnByte (s.epoch + 1) x) ∧
  ∀ m e : Nat, Config.memSizeMin ≤ m → m ≤ Config.memSizeMax → ∃ s, s = State.resetOf m e ∧ s.Inv ∧
    s.ie = false ∧ s.busy = false ∧ s.done = false ∧ s.ovr = false ∧ s.err = .ok ∧
    s.cmd = 0 ∧ s.src = 0 ∧ s.dst = 0 ∧ s.len = 0 ∧ s.aux = 0 ∧ s.outlen = 0 ∧
    s.cmdl = 0 ∧ s.srcl = 0 ∧ s.dstl = 0 ∧ s.lenl = 0 ∧ s.auxl = 0 ∧
    s.rk.length = 15 ∧ (∀ r, roundKey s.rk r = Block.zero) ∧ s.keyv = false ∧ s.ksz = .bytes16 ∧
    s.cbc = ⟨Block.zero, false⟩ ∧ s.ctr = ⟨Block.zero, Block.zero, 0, false⟩ ∧ s.xts = ⟨Block.zero, false⟩ ∧
    s.ghash = ⟨Block.zero, Block.zero, 0, 0, Block.zero, 0, .none⟩ ∧ s.irq = false ∧ s.memSize = m ∧
    State.reset.Inv

/-- From R451: a CTRL write with bit 31 = 1 resets everything but DMEM and the constants, and cancels a command in
flight. That the host's program, the data it last read and `strict` are kept is the model's (log 4, 5, 7). -/
def Obligations.SoftResetKeepsOnlyDmem : Prop :=
  ∀ (s : State) (v : Word) (rest : List HostEvent), s.host = .regWrite 0x04 4 v :: rest → v.getLsbD 31 = true →
    ∃ t, step s = .next t ∧
      t = { State.resetOf s.memSize s.epoch with
        strict := s.strict, dmem := s.dmem, host := rest, busData := s.busData } ∧
      dmemKept s t ∧ t.busy = false ∧ t.done = false ∧ t.ovr = false ∧ t.keyv = false ∧
      t.readRegister 0x04 = 0 ∧ t.readRegister 0x00 = s.readRegister 0x00 ∧
      t.readRegister 0x24 = s.readRegister 0x24

/-- R38, R47, R50, R80, R364, R381: every step keeps the invariant. Its clause that OUTLEN and ERR are 0 while a
command is in flight follows the model's reading of R47 (DESIGN CHOICE, log 16). -/
def Obligations.StepKeepsTheInvariant : Prop :=
  ∀ s t : State, s.Inv → step s = .next t → t.Inv

/-! ## All commands -/

/-- R48: a command always completes: BUSY = 0 and DONE = 1. -/
def Obligations.EveryCommandCompletes : Prop :=
  ∀ (i : Instr) (s : State), ∃ t, exec i s = .next t ∧ t.busy = false ∧ t.done = true

/-- R34, R35, R37: no command writes CTRL.IE, OVR, CMD, an operand register, a latch or MEM_SIZE. That none
changes `strict`, `epoch`, `host` or `busData` is the model's (log 2, 4, 5, 7). -/
def Obligations.CommandsKeepTheHostSide : Prop :=
  ∀ (i : Instr) (s t : State), exec i s = .next t → sameHostSide s t

/-- R37, R48: a command does not read the live registers: other values in them change nothing else. -/
def Obligations.CommandsReadOnlyTheLatches : Prop :=
  ∀ (i : Instr) (s : State) (a b c d w : Word) (ie ovr : Bool),
    exec i { s with src := a, dst := b, len := c, aux := d, cmd := w, ie := ie, ovr := ovr } =
      mapNext (fun t => { t with src := a, dst := b, len := c, aux := d, cmd := w, ie := ie, ovr := ovr }) (exec i s)

/-- R125, R404: a command does not check or read the operand registers it does not use, and a range of length 0
is valid at any address. -/
def Obligations.UnusedOperandsAreIgnored : Prop :=
  ∀ (i : Instr) (s : State) (a : Word),
    (ignoresSrc i → exec i { s with srcl := a } = mapNext (fun t => { t with srcl := a }) (exec i s)) ∧
    (ignoresDst i → exec i { s with dstl := a } = mapNext (fun t => { t with dstl := a }) (exec i s)) ∧
    (ignoresLen i → exec i { s with lenl := a } = mapNext (fun t => { t with lenl := a }) (exec i s)) ∧
    (ignoresAux i → exec i { s with auxl := a } = mapNext (fun t => { t with auxl := a }) (exec i s)) ∧
    ∀ x : Nat, s.valid x 0 = true

/-- R38: only KEY_LOAD and KEY_CLEAR write the round key file. -/
def Obligations.OnlyKeyCommandsWriteRoundKeys : Prop :=
  ∀ (i : Instr) (s t : State), exec i s = .next t → i ≠ .keyLoad → i ≠ .keyClear → sameKey s t

/-- R46: a command changes no context but its own mode's. -/
def Obligations.CommandsKeepOtherContexts : Prop :=
  ∀ (i : Instr) (s t : State), exec i s = .next t →
    (i ≠ .cbcSetiv → (∀ p, i ≠ .cbcEnc p ∧ i ≠ .cbcDec p) → t.cbc = s.cbc) ∧
    (i ≠ .ctrSetctr → i ≠ .ctrXor → t.ctr = s.ctr) ∧
    (i ≠ .xtsSettweak → i ≠ .xtsEnc → i ≠ .xtsDec → (∀ p, i ≠ .xexEnc p ∧ i ≠ .xexDec p) → t.xts = s.xts) ∧
    (i ≠ .ghashInit → i ≠ .ghashUpdate → i ≠ .ghashFinal → t.ghash = s.ghash)

/-- R401: a command that raises an error changes nothing but STATUS; PAD_BAD_PADDING keeps the update of CV
(CBC_DEC) or TWK (XEX_DEC). -/
def Obligations.ErrorsChangeNothingElse : Prop :=
  ∀ (i : Instr) (s t : State), exec i s = .next t → t.err ≠ .ok →
    t.busy = false ∧ t.done = true ∧ t.outlen = s.outlen ∧ t.dmem = s.dmem ∧ dmemKept s t ∧ sameKey s t ∧
    sameHostSide s t ∧ t.ctr = s.ctr ∧ t.ghash = s.ghash ∧
    (t.err ≠ .padBadPadding → sameContexts s t) ∧
    (t.err = .padBadPadding →
      ((∃ p, i = .ecbDec p) ∧ sameContexts s t) ∨
      ((∃ p, i = .cbcDec p) ∧ t.xts = s.xts ∧
        t.cbc = { s.cbc with cv := (cbcDecrypt s.decrypt s.cbc.cv (blocksOf s.srcBytes)).2 }) ∨
      ((∃ p, i = .xexDec p) ∧ t.cbc = s.cbc ∧
        t.xts = { s.xts with twk := xtsDoubleIter (s.count / 16) s.xts.twk }))

/-- R127: the commands that need the key raise NO_KEY without one, and no other command does. -/
def Obligations.KeyUsingCommandsRaiseNoKey : Prop :=
  ∀ (i : Instr) (s : State), i.wellFormed = true → s.keyv = false →
    ((∃ r, i = .ksRead r) ∨ i = .blkEnc ∨ i = .blkDec ∨ (∃ p, i = .ecbEnc p ∨ i = .ecbDec p) ∨
      (∃ p, i = .cbcEnc p ∨ i = .cbcDec p) ∨ i = .ctrXor ∨ i = .xtsSettweak ∨
      (∃ p, i = .xexEnc p ∨ i = .xexDec p) ∨ i = .xtsEnc ∨ i = .xtsDec ↔ exec i s = .next (s.complete .noKey))

/-- From R400 and R403 (the spec derives it): the code a command reports is the smallest whose cause is there, and OK
when none is. The cause of ILLEGAL_CMD for an ill-formed Instr is the model's reading (DEDUCED, log 11). -/
def Obligations.ErrorCodeIsTheSmallestCause : Prop :=
  ∀ (i : Instr) (s t : State), exec i s = .next t →
    (t.err = .ok ↔ ∀ c, ¬errorApplies i s c) ∧
    (t.err ≠ .ok → errorApplies i s t.err ∧ ∀ c, errorApplies i s c → t.err.code.toNat ≤ c.code.toNat)

/-! ## Control, read-back and engine commands -/

/-- R250: NOP only completes, which raises the interrupt when IE = 1; its one word is 0. -/
def Obligations.NopOnlyCompletes : Prop :=
  (∀ w : Word, decode w = .ok .nop ↔ w = 0) ∧
  ∀ s : State, ∃ t, exec .nop s = .next t ∧ t = { s with err := .ok, busy := false, done := true } ∧ t.irq = s.ie

/-- R251: KEY_LOAD. -/
def Obligations.KeyLoadExpandsTheKey : Prop :=
  encode .keyLoad = 0x00000001#32 ∧
  ∀ s : State,
    (s.count ≠ 16 ∧ s.count ≠ 24 ∧ s.count ≠ 32 → exec .keyLoad s = .next (s.complete .badLength)) ∧
    (s.count = 16 ∨ s.count = 24 ∨ s.count = 32 →
      (s.srcValid s.count = false → exec .keyLoad s = .next (s.complete .badAddress)) ∧
      (s.srcValid s.count = true → ∃ t, exec .keyLoad s = .next t ∧ succeeded t ∧
        t.keyv = true ∧ t.ksz.code.toNat = (s.count - 16) / 8 ∧ t.nrField.toNat = s.count / 4 + 6 ∧
        t.rk.length = 15 ∧
        (∀ r, r ≤ s.count / 4 + 6 → roundKey t.rk r = roundKey (keyExpansion s.srcBytes) r) ∧
        (∀ r, s.count / 4 + 6 < r → r < 15 → roundKey t.rk r = Block.zero) ∧
        t = { s with rk := t.rk, keyv := t.keyv, ksz := t.ksz, err := t.err, busy := t.busy, done := t.done }))

/-- R253: KEY_CLEAR. -/
def Obligations.KeyClearErasesTheRoundKeys : Prop :=
  encode .keyClear = 0x00000002#32 ∧
  ∀ s : State, ∃ t, exec .keyClear s = .next t ∧ succeeded t ∧
    t.rk.length = 15 ∧ (∀ r, r < 15 → roundKey t.rk r = Block.zero) ∧ t.keyv = false ∧ t.ksz.code = 0 ∧
    t.nrField = 0 ∧
    t = { s with rk := t.rk, keyv := t.keyv, ksz := t.ksz, err := t.err, busy := t.busy, done := t.done }

/-- R254: KS_READ. -/
def Obligations.KsReadWritesTheRoundKey : Prop :=
  (∀ r : BitVec 4, (encode (.ksRead r)).toNat = 3 + r.toNat * 65536) ∧
  ∀ (idx : BitVec 4) (s : State), Memory.wf s.dmem →
    (s.keyv = false → exec (.ksRead idx) s = .next (s.complete .noKey)) ∧
    (s.keyv = true → s.ksz.rounds < idx.toNat → exec (.ksRead idx) s = .next (s.complete .badIndex)) ∧
    (s.keyv = true → idx.toNat ≤ s.ksz.rounds →
      (s.dstValid 16 = false → exec (.ksRead idx) s = .next (s.complete .badAddress)) ∧
      (s.dstValid 16 = true → ∃ t, exec (.ksRead idx) s = .next t ∧
        outputs s t (roundKey s.rk idx.toNat).toBytes))

/-- From R256: STATE_READ, with the selectors of R124. What exec does with a selector of 8 or more, which no word
decodes to, is the model's reading (DEDUCED, log 11). -/
def Obligations.StateReadWritesTheContextRegister : Prop :=
  (∀ sel : BitVec 4, (encode (.stateRead sel)).toNat = 4 + sel.toNat * 65536) ∧
  ∀ (sel : BitVec 4) (s : State), Memory.wf s.dmem →
    (8 ≤ sel.toNat → exec (.stateRead sel) s = .next (s.complete .illegalCmd)) ∧
    (sel.toNat < 8 →
      (s.dstValid 16 = false → exec (.stateRead sel) s = .next (s.complete .badAddress)) ∧
      (s.dstValid 16 = true → ∃ t, exec (.stateRead sel) s = .next t ∧
        outputs s t
          ([s.cbc.cv.toBytes, s.ctr.cnt.toBytes, s.ctr.ksbuf.toBytes, s.xts.twk.toBytes, s.ghash.h.toBytes,
            s.ghash.acc.toBytes, s.ghash.buf.toBytes,
            be64 (8 * s.ghash.alen.toNat) ++ be64 (8 * s.ghash.dlen.toNat)].getD sel.toNat [])))

/-- R260: GF8_MUL. -/
def Obligations.Gf8MulWritesTheProducts : Prop :=
  encode .gf8Mul = 0x00000005#32 ∧
  ∀ s : State, Memory.wf s.dmem →
    (s.srcValid s.count = false ∨ s.auxValid s.count = false ∨ s.dstValid s.count = false →
      exec .gf8Mul s = .next (s.complete .badAddress)) ∧
    (s.srcValid s.count = true → s.auxValid s.count = true → s.dstValid s.count = true →
      ∃ t v, exec .gf8Mul s = .next t ∧ outputs s t v ∧ v.length = s.count ∧
        ∀ i, i < s.count → v.getD i 0 = gmul (s.dmemByte (s.srcAddr + i)) (s.dmemByte (s.auxAddr + i)))

/-- R261, R262: SBOX_FWD and SBOX_INV. -/
def Obligations.SboxCommandsMapTheBytes : Prop :=
  encode .sboxFwd = 0x00000006#32 ∧ encode .sboxInv = 0x00000007#32 ∧
  ∀ (s : State) (i : Instr) (f : Byte → Byte), (i = .sboxFwd ∧ f = sbox) ∨ (i = .sboxInv ∧ f = rsbox) →
    Memory.wf s.dmem →
    (s.srcValid s.count = false ∨ s.dstValid s.count = false → exec i s = .next (s.complete .badAddress)) ∧
    (s.srcValid s.count = true → s.dstValid s.count = true →
      ∃ t v, exec i s = .next t ∧ outputs s t v ∧ v.length = s.count ∧
        ∀ k, k < s.count → v.getD k 0 = f (s.dmemByte (s.srcAddr + k)))

/-- R263: GF128_MUL. -/
def Obligations.Gf128MulWritesTheProduct : Prop :=
  encode .gf128Mul = 0x00000008#32 ∧
  ∀ s : State, Memory.wf s.dmem →
    (s.srcValid 16 = false ∨ s.auxValid 16 = false ∨ s.dstValid 16 = false →
      exec .gf128Mul s = .next (s.complete .badAddress)) ∧
    (s.srcValid 16 = true → s.auxValid 16 = true → s.dstValid 16 = true →
      ∃ t, exec .gf128Mul s = .next t ∧
        outputs s t (gf128mul (s.blockAt s.srcAddr) (s.blockAt s.auxAddr)).toBytes)

/-- R270, R271: BLK_ENC and BLK_DEC. -/
def Obligations.BlkCommandsCipherOneBlock : Prop :=
  encode .blkEnc = 0x00000010#32 ∧ encode .blkDec = 0x00000011#32 ∧
  ∀ (s : State) (i : Instr) (f : Block → Block), (i = .blkEnc ∧ f = s.encrypt) ∨ (i = .blkDec ∧ f = s.decrypt) →
    Memory.wf s.dmem →
    (s.keyv = false → exec i s = .next (s.complete .noKey)) ∧
    (s.keyv = true → s.count ≠ 16 → exec i s = .next (s.complete .badLength)) ∧
    (s.keyv = true → s.count = 16 →
      (s.srcValid 16 = false ∨ s.dstValid 16 = false → exec i s = .next (s.complete .badAddress)) ∧
      (s.srcValid 16 = true → s.dstValid 16 = true →
        ∃ t, exec i s = .next t ∧ outputs s t (f (s.blockAt s.srcAddr)).toBytes))

/-! ## The block modes -/

/-- R320, R330, R360: CBC_SETIV, XTS_SETTWEAK and CTR_SETCTR load a context from the 16 bytes at SRCL; only
XTS_SETTWEAK needs the key. -/
def Obligations.SetCommandsLoadTheirContexts : Prop :=
  encode .cbcSetiv = 0x00000028#32 ∧ encode .xtsSettweak = 0x00000038#32 ∧ encode .ctrSetctr = 0x00000030#32 ∧
  ∀ s : State,
    (s.srcValid 16 = false → exec .cbcSetiv s = .next (s.complete .badAddress) ∧
      exec .ctrSetctr s = .next (s.complete .badAddress)) ∧
    (s.srcValid 16 = true →
      exec .cbcSetiv s =
        .next { s with cbc := ⟨s.blockAt s.srcAddr, true⟩, err := .ok, busy := false, done := true } ∧
      exec .ctrSetctr s =
        .next { s with ctr := ⟨s.blockAt s.srcAddr, Block.zero, 0, true⟩, err := .ok, busy := false, done := true }) ∧
    (s.keyv = false → exec .xtsSettweak s = .next (s.complete .noKey)) ∧
    (s.keyv = true → s.srcValid 16 = false → exec .xtsSettweak s = .next (s.complete .badAddress)) ∧
    (s.keyv = true → s.srcValid 16 = true → exec .xtsSettweak s =
      .next { s with xts := ⟨s.encrypt (s.blockAt s.srcAddr), true⟩, err := .ok, busy := false, done := true })

/-- R310: ECB_ENC. -/
def Obligations.EcbEncEncryptsEachBlock : Prop :=
  encode (.ecbEnc 0) = 0x00000020#32 ∧ encode (.ecbEnc 1) = 0x00000120#32 ∧
  ∀ (p : Pad) (s : State), Memory.wf s.dmem →
    encryptingErrors (.ecbEnc p.field) p true s ∧
    (encryptingReady p true s → ∃ t out, exec (.ecbEnc p.field) s = .next t ∧ outputs s t out ∧
      out.length = paddedLength p s.count ∧
      ∀ j, 16 * j < out.length → blockOf out j = s.encrypt (blockOf (padBytes p s.srcBytes) j))

/-- R311: ECB_DEC. -/
def Obligations.EcbDecDecryptsEachBlock : Prop :=
  encode (.ecbDec 0) = 0x00000021#32 ∧ encode (.ecbDec 1) = 0x00000121#32 ∧
  ∀ (p : Pad) (s : State), Memory.wf s.dmem →
    decryptingErrors (.ecbDec p.field) true s ∧
    (decryptingReady true s → ∃ ps : List Byte, ps.length = s.count ∧
      (∀ j, 16 * j < ps.length → blockOf ps j = s.decrypt (blockOf s.srcBytes j)) ∧
      decryptsTo (.ecbDec p.field) p s s ps)

/-- R321: CBC_ENC: block `j` is chained to the ciphertext block before it, and CV ends as the last one. -/
def Obligations.CbcEncChainsTheBlocks : Prop :=
  encode (.cbcEnc 0) = 0x00000029#32 ∧ encode (.cbcEnc 1) = 0x00000129#32 ∧
  ∀ (p : Pad) (s : State), Memory.wf s.dmem →
    encryptingErrors (.cbcEnc p.field) p s.cbc.cbcv s ∧
    (encryptingReady p s.cbc.cbcv s → ∃ t out, exec (.cbcEnc p.field) s = .next t ∧
      outputs (s.setCv t.cbc.cv) t out ∧ out.length = paddedLength p s.count ∧
      (∀ j, 16 * j < out.length → blockOf out j =
        s.encrypt ((blockOf (padBytes p s.srcBytes) j).xor (if j = 0 then s.cbc.cv else blockOf out (j - 1)))) ∧
      t.cbc.cv = if out.length = 0 then s.cbc.cv else blockOf out (out.length / 16 - 1))

/-- R322: CBC_DEC: block `j` is unchained from the ciphertext block before it, and CV ends as the last one,
also on PAD_BAD_PADDING. -/
def Obligations.CbcDecUnchainsTheBlocks : Prop :=
  encode (.cbcDec 0) = 0x0000002A#32 ∧ encode (.cbcDec 1) = 0x0000012A#32 ∧
  ∀ (p : Pad) (s : State), Memory.wf s.dmem →
    decryptingErrors (.cbcDec p.field) s.cbc.cbcv s ∧
    (decryptingReady s.cbc.cbcv s → ∃ (ps : List Byte) (cv : Block), ps.length = s.count ∧
      (∀ j, 16 * j < ps.length → blockOf ps j =
        (s.decrypt (blockOf s.srcBytes j)).xor (if j = 0 then s.cbc.cv else blockOf s.srcBytes (j - 1))) ∧
      cv = (if s.count = 0 then s.cbc.cv else blockOf s.srcBytes (s.count / 16 - 1)) ∧
      decryptsTo (.cbcDec p.field) p s (s.setCv cv) ps)

/-- R331, R332, R342: XEX_ENC: block `j` is whitened with the tweak doubled `j` times, and TWK ends doubled once
per block. -/
def Obligations.XexEncTweaksEachBlock : Prop :=
  encode (.xexEnc 0) = 0x00000039#32 ∧ encode (.xexEnc 1) = 0x00000139#32 ∧
  ∀ (p : Pad) (s : State), Memory.wf s.dmem →
    encryptingErrors (.xexEnc p.field) p s.xts.xtsv s ∧
    (encryptingReady p s.xts.xtsv s → ∃ t out, exec (.xexEnc p.field) s = .next t ∧
      outputs (s.setTwk (xtsDoubleIter (out.length / 16) s.xts.twk)) t out ∧
      out.length = paddedLength p s.count ∧
      ∀ j, 16 * j < out.length → blockOf out j =
        (s.encrypt ((blockOf (padBytes p s.srcBytes) j).xor (xtsDoubleIter j s.xts.twk))).xor
          (xtsDoubleIter j s.xts.twk))

/-- R331, R333, R342: XEX_DEC; TWK is advanced also on PAD_BAD_PADDING. -/
def Obligations.XexDecTweaksEachBlock : Prop :=
  encode (.xexDec 0) = 0x0000003A#32 ∧ encode (.xexDec 1) = 0x0000013A#32 ∧
  ∀ (p : Pad) (s : State), Memory.wf s.dmem →
    decryptingErrors (.xexDec p.field) s.xts.xtsv s ∧
    (decryptingReady s.xts.xtsv s → ∃ ps : List Byte, ps.length = s.count ∧
      (∀ j, 16 * j < ps.length → blockOf ps j =
        (s.decrypt ((blockOf s.srcBytes j).xor (xtsDoubleIter j s.xts.twk))).xor (xtsDoubleIter j s.xts.twk)) ∧
      decryptsTo (.xexDec p.field) p s (s.setTwk (xtsDoubleIter (s.count / 16) s.xts.twk)) ps)

/-- R340: XTS_ENC, with ciphertext stealing. -/
def Obligations.XtsEncStealsCiphertext : Prop :=
  encode .xtsEnc = 0x0000003B#32 ∧
  ∀ s : State, Memory.wf s.dmem →
    xtsErrors .xtsEnc s ∧
    (xtsReady s → ∃ t out, exec .xtsEnc s = .next t ∧
      outputs (s.setTwk (xtsDoubleIter ((s.count + 15) / 16) s.xts.twk)) t out ∧ out.length = s.count ∧
      ∃ (m b : Nat) (cc : Block), m = s.count / 16 ∧ b = s.count % 16 ∧
        cc = xexBlock s.encrypt (blockOf s.srcBytes (m - 1)) (xtsDoubleIter (m - 1) s.xts.twk) ∧
        (∀ j, j + 1 < m → blockOf out j =
          xexBlock s.encrypt (blockOf s.srcBytes j) (xtsDoubleIter j s.xts.twk)) ∧
        (b = 0 → blockOf out (m - 1) = cc) ∧
        (b ≠ 0 →
          blockOf out (m - 1) = xexBlock s.encrypt
            (Block.ofBytes (s.srcBytes.drop (16 * m) ++ cc.toBytes.drop b)) (xtsDoubleIter m s.xts.twk) ∧
          out.drop (16 * m) = cc.toBytes.take b))

/-- R341: XTS_DEC, with ciphertext stealing. -/
def Obligations.XtsDecRebuildsStolenBlock : Prop :=
  encode .xtsDec = 0x0000003C#32 ∧
  ∀ s : State, Memory.wf s.dmem →
    xtsErrors .xtsDec s ∧
    (xtsReady s → ∃ t out, exec .xtsDec s = .next t ∧
      outputs (s.setTwk (xtsDoubleIter ((s.count + 15) / 16) s.xts.twk)) t out ∧ out.length = s.count ∧
      ∃ (m b : Nat) (pp : Block), m = s.count / 16 ∧ b = s.count % 16 ∧
        pp = xexBlock s.decrypt (blockOf s.srcBytes (m - 1)) (xtsDoubleIter m s.xts.twk) ∧
        (∀ j, j + 1 < m → blockOf out j =
          xexBlock s.decrypt (blockOf s.srcBytes j) (xtsDoubleIter j s.xts.twk)) ∧
        (b = 0 → blockOf out (m - 1) =
          xexBlock s.decrypt (blockOf s.srcBytes (m - 1)) (xtsDoubleIter (m - 1) s.xts.twk)) ∧
        (b ≠ 0 →
          blockOf out (m - 1) = xexBlock s.decrypt
            (Block.ofBytes (s.srcBytes.drop (16 * m) ++ pp.toBytes.drop b)) (xtsDoubleIter (m - 1) s.xts.twk) ∧
          out.drop (16 * m) = pp.toBytes.take b))

/-- From R343 (the spec derives it): a decrypting command on the output of an encrypting one, from equal context values under one key,
gives the plaintext back and leaves the same context. -/
def Obligations.DecryptingReversesEncrypting : Prop :=
  ∀ (p : Pad) (enc dec : Instr) (s t u : State) (d : Word), s.Inv → reverses p enc dec →
    exec enc s = .next t → t.err = .ok →
    u = { t with srcl := s.dstl, lenl := t.outlen, dstl := d, cbc := s.cbc, xts := s.xts } →
    u.dstValid u.count = true →
    ∃ v, exec dec u = .next v ∧ succeeded v ∧ v.outlen = s.lenl ∧
      (∀ i, i < s.count → v.dmemByte (d.toNat + i) = s.dmemByte (s.srcAddr + i)) ∧
      v.cbc = t.cbc ∧ v.xts = t.xts ∧ (enc = .xtsEnc → t.outlen = s.lenl)

/-! ## CTR and GHASH -/

/-- R362, R363, R364: CTR_XOR: each byte is XORed with the next byte of the keystream; CNT counts the blocks
begun, and the leftover is the keystream that follows. -/
def Obligations.CtrXorAppliesTheKeystream : Prop :=
  encode .ctrXor = 0x00000031#32 ∧
  ∀ s : State, Memory.wf s.dmem →
    (s.keyv = false → exec .ctrXor s = .next (s.complete .noKey)) ∧
    (s.keyv = true → s.ctr.ctrv = false → exec .ctrXor s = .next (s.complete .badState)) ∧
    (s.keyv = true → s.ctr.ctrv = true →
      (s.srcValid s.count = false ∨ s.dstValid s.count = false →
        exec .ctrXor s = .next (s.complete .badAddress)) ∧
      (s.srcValid s.count = true → s.dstValid s.count = true → ∃ t out, exec .ctrXor s = .next t ∧
        outputs { s with ctr := t.ctr } t out ∧ out.length = s.count ∧
        (∀ i, i < s.count →
          out.getD i 0 = s.dmemByte (s.srcAddr + i) ^^^ keystreamByte s.encrypt s.ctr i) ∧
        t.ctr.cnt = incIter ((s.count - s.ctr.kslen.toNat + 15) / 16) s.ctr.cnt ∧
        t.ctr.kslen.toNat = (if s.count ≤ s.ctr.kslen.toNat then s.ctr.kslen.toNat - s.count
          else (16 - (s.count - s.ctr.kslen.toNat) % 16) % 16) ∧
        (∀ i, i < t.ctr.kslen.toNat → t.ctr.ksbuf.get (16 - t.ctr.kslen.toNat + i) =
          keystreamByte s.encrypt s.ctr (s.count + i)) ∧
        t.ctr.ctrv = true ∧ (s.ctr.Inv → t.ctr.Inv)))

/-- From R363 (the spec derives it), on the function of CTR_XOR: a stream split in two gives what one command on the whole gives, and leaves the same context. -/
def Obligations.CtrStreamSplitsAnywhere : Prop :=
  ∀ (enc : Block → Block) (c : CtrContext) (x y : List Byte), c.Inv →
    ctrStream enc c (x ++ y) =
      ((ctrStream enc c x).1 ++ (ctrStream enc (ctrStream enc c x).2 y).1, (ctrStream enc (ctrStream enc c x).2 y).2)

/-- R383: GHASH_INIT. -/
def Obligations.GhashInitFoldsTheAad : Prop :=
  encode .ghashInit = 0x00000040#32 ∧
  ∀ s : State,
    (s.srcValid 16 = false ∨ s.auxValid s.count = false → exec .ghashInit s = .next (s.complete .badAddress)) ∧
    (s.srcValid 16 = true → s.auxValid s.count = true → ∃ t, exec .ghashInit s = .next t ∧ succeeded t ∧
      t.ghash.h = s.blockAt s.srcAddr ∧
      t.ghash.acc = (List.range ((s.count + 15) / 16)).foldl
        (fun a j => gf128mul t.ghash.h (a.xor (Block.ofBytes (s.auxBytes.drop (16 * j))))) Block.zero ∧
      t.ghash.alen.toNat = s.count ∧ t.ghash.dlen = 0 ∧ t.ghash.buf = Block.zero ∧ t.ghash.blen = 0 ∧
      t.ghash.ghph = .active ∧
      t = { s with ghash := t.ghash, err := t.err, busy := t.busy, done := t.done })

/-- R384: GHASH_UPDATE: the whole blocks of the partial block and the data are folded, and the rest is the new
partial block. -/
def Obligations.GhashUpdateFoldsWholeBlocks : Prop :=
  encode .ghashUpdate = 0x00000041#32 ∧
  ∀ s : State, s.ghash.Inv →
    (s.ghash.ghph ≠ .active → exec .ghashUpdate s = .next (s.complete .badState)) ∧
    (s.ghash.ghph = .active → s.srcValid s.count = false → exec .ghashUpdate s = .next (s.complete .badAddress)) ∧
    (s.ghash.ghph = .active → s.srcValid s.count = true →
      ∃ (t : State) (d : List Byte), exec .ghashUpdate s = .next t ∧ succeeded t ∧
        d = s.ghash.buf.toBytes.take s.ghash.blen.toNat ++ s.srcBytes ∧
        t.ghash = { s.ghash with
          acc := (blocksOf d).foldl (fun a x => gf128mul s.ghash.h (a.xor x)) s.ghash.acc,
          buf := Block.ofBytes (d.drop (16 * (d.length / 16))), blen := BitVec.ofNat 4 (d.length % 16),
          dlen := s.ghash.dlen + BitVec.ofNat 64 s.count } ∧
        t = { s with ghash := t.ghash, err := t.err, busy := t.busy, done := t.done })

/-- R385: GHASH_FINAL. -/
def Obligations.GhashFinalWritesTheHash : Prop :=
  encode .ghashFinal = 0x00000042#32 ∧
  ∀ s : State, Memory.wf s.dmem →
    (s.ghash.ghph ≠ .active → exec .ghashFinal s = .next (s.complete .badState)) ∧
    (s.ghash.ghph = .active → s.dstValid 16 = false → exec .ghashFinal s = .next (s.complete .badAddress)) ∧
    (s.ghash.ghph = .active → s.dstValid 16 = true → ∃ (t : State) (a : Block), exec .ghashFinal s = .next t ∧
      a = (if s.ghash.blen = 0 then s.ghash.acc else gf128mul s.ghash.h (s.ghash.acc.xor s.ghash.buf)) ∧
      t.ghash.acc = gf128mul s.ghash.h
        (a.xor (Block.ofBytes (be64 (8 * s.ghash.alen.toNat) ++ be64 (8 * s.ghash.dlen.toNat)))) ∧
      t.ghash = { s.ghash with
        acc := t.ghash.acc, buf := (if s.ghash.blen = 0 then s.ghash.buf else Block.zero), blen := 0,
        ghph := .final } ∧
      outputs { s with ghash := t.ghash } t t.ghash.acc.toBytes)

/-- From R386 (general knowledge, derived in the spec), on the functions of the three commands: `ghashStart`, any number
of `ghashData` and `ghashFinish` give the hash of the padded AAD, the padded concatenation of the
data and the lengths block. -/
def Obligations.GhashSequenceIsTheStandardHash : Prop :=
  ∀ (h : Block) (a : List Byte) (pieces : List (List Byte)),
    (ghashFinish (pieces.foldl ghashData (ghashStart h a))).acc =
      (paddedBlocksOf a ++ paddedBlocksOf pieces.flatten ++
        [Block.ofBytes (be64 (8 * a.length) ++ be64 (8 * pieces.flatten.length))]).foldl
          (fun acc b => gf128mul h (acc.xor b)) Block.zero

/-! ## The functions of the core -/

/-- R221: the key schedule of a 16-, 24- or 32-byte key. -/
def Obligations.KeyExpansionFollowsTheRecurrence : Prop :=
  ∀ key : List Byte, key.length = 16 ∨ key.length = 24 ∨ key.length = 32 →
    ∃ (nk : Nat) (w : List KeyWord), nk = key.length / 4 ∧ w = scheduleWords key ∧ w.length = 4 * (nk + 7) ∧
      (∀ i, i < nk → w.getD i KeyWord.zero =
        ⟨key.getD (4 * i) 0, key.getD (4 * i + 1) 0, key.getD (4 * i + 2) 0, key.getD (4 * i + 3) 0⟩) ∧
      (∀ i, nk ≤ i → i < 4 * (nk + 7) → ∃ t : KeyWord, t = w.getD (i - 1) KeyWord.zero ∧
        w.getD i KeyWord.zero = (w.getD (i - nk) KeyWord.zero).xor
          (if i % nk = 0 then ⟨sbox t.t1 ^^^ rcon (i / nk - 1), sbox t.t2, sbox t.t3, sbox t.t0⟩
           else if 6 < nk ∧ i % nk = 4 then ⟨sbox t.t0, sbox t.t1, sbox t.t2, sbox t.t3⟩
           else t)) ∧
      (keyExpansion key).length = nk + 7 ∧
      ∀ r c, r < nk + 7 → c < 4 → (roundKey (keyExpansion key) r).column c = w.getD (4 * r + c) KeyWord.zero

/-- From R232 (the spec derives it): the two cores are inverses, under any round key file and number of rounds. -/
def Obligations.CipherCoresAreInverse : Prop :=
  ∀ (rk : List Block) (nr : Nat) (b : Block),
    decryptCore rk nr (encryptCore rk nr b) = b ∧ encryptCore rk nr (decryptCore rk nr b) = b

/-- R164, R210 to R215: the inverse transforms undo the transforms, and the transforms undo them. -/
def Obligations.InverseTransformsUndoTransforms : Prop :=
  (∀ i : Byte, rsbox (sbox i) = i ∧ sbox (rsbox i) = i) ∧
  ∀ s k : Block,
    invSubBytes (subBytes s) = s ∧ subBytes (invSubBytes s) = s ∧
    invShiftRows (shiftRows s) = s ∧ shiftRows (invShiftRows s) = s ∧
    invMixColumns (mixColumns s) = s ∧ mixColumns (invMixColumns s) = s ∧
    addRoundKey (addRoundKey s k) k = s

/-- R211, R213: ShiftRows and MixColumns on the cells of the state, in the rules' general forms. -/
def Obligations.RowAndColumnTransformsByCell : Prop :=
  ∀ (s : Block) (i c : Nat), i < 4 → c < 4 →
    (shiftRows s).cell i c = s.cell i ((c + i) % 4) ∧
    (invShiftRows s).cell i ((c + i) % 4) = s.cell i c ∧
    (mixColumns s).cell i c = ((List.range 4).map fun k =>
      gmul (([2, 3, 1, 1] : List Byte).getD ((k + 4 - i) % 4) 0) (s.cell k c)).foldl (· ^^^ ·) 0 ∧
    (invMixColumns s).cell i c = ((List.range 4).map fun k =>
      gmul (([0x0E, 0x0B, 0x0D, 0x09] : List Byte).getD ((k + 4 - i) % 4) 0) (s.cell k c)).foldl (· ^^^ ·) 0

/-- R161: gmul is commutative, and bilinear over exclusive or, with 0 and 1 as the rule says. -/
def Obligations.GmulIsACommutativeProduct : Prop :=
  ∀ a b c : Byte, gmul a b = gmul b a ∧ gmul a (b ^^^ c) = gmul a b ^^^ gmul a c ∧ gmul a 0 = 0 ∧ gmul a 1 = a

/-- R167: gf128mul is bilinear over exclusive or, with zero and the identity string as the rule says. -/
def Obligations.Gf128mulIsBilinearWithIdentity : Prop :=
  ∀ x y z : Block,
    gf128mul (x.xor y) z = (gf128mul x z).xor (gf128mul y z) ∧
    gf128mul x (y.xor z) = (gf128mul x y).xor (gf128mul x z) ∧
    gf128mul x Block.zero = Block.zero ∧ gf128mul Block.zero y = Block.zero ∧
    gf128mul ⟨0x80, 0, 0, 0, 0, 0, 0, 0, 0, 0, 0, 0, 0, 0, 0, 0⟩ y = y ∧
    gf128mul x ⟨0x80, 0, 0, 0, 0, 0, 0, 0, 0, 0, 0, 0, 0, 0, 0, 0⟩ = x

/-- R168: xts_double on the little-endian number of the tweak: doubled, and reduced by 0x87 on overflow. -/
def Obligations.XtsDoubleDoublesTheTweak : Prop :=
  ∀ t : Block, leNat (xtsDouble t).toBytes =
    if 2 ^ 127 ≤ leNat t.toBytes then (2 * leNat t.toBytes - 2 ^ 128) ^^^ 0x87 else 2 * leNat t.toBytes

/-- R361: the counter is the 128-bit big-endian number of its block, and wraps. -/
def Obligations.CounterIncrementsBigEndian : Prop :=
  ∀ c : Block, (incCounter c).be128 = (c.be128 + 1) % 2 ^ 128

/-- From R300 to R302: what PKCS#7 pads with and when unpadding fails, byte by byte; the padded length; NoPadding is
the identity; and the round trip, which the spec derives. -/
def Obligations.UnpadReversesPad : Prop :=
  (∀ d : List Byte, padBytes .noPad d = d ∧ unpadBytes .noPad d = .ok d ∧
    padBytes .pkcs7 d = pad1 d ∧ unpadBytes .pkcs7 d = unpad1 d) ∧
  (∀ d : List Byte, ∃ p : Nat, p = 16 - d.length % 16 ∧ 1 ≤ p ∧ p ≤ 16 ∧
    pad1 d = d ++ List.replicate p (BitVec.ofNat 8 p) ∧ (pad1 d).length % 16 = 0) ∧
  (∀ (q : Pad) (d : List Byte), unpadBytes q (padBytes q d) = .ok d ∧
    (padBytes q d).length = paddedLength q d.length) ∧
  ∀ d : List Byte,
    (d.length % 16 ≠ 0 → unpad1 d = .error .padBadData) ∧
    (d = [] → unpad1 d = .error .padBadPadding) ∧
    (d.length % 16 = 0 → d ≠ [] → ∃ p : Nat, p = (d.getD (d.length - 1) 0).toNat ∧
      (p = 0 ∨ 16 < p → unpad1 d = .error .padBadPadding) ∧
      (1 ≤ p → p ≤ 16 →
        ((∃ i, d.length - p ≤ i ∧ i < d.length ∧ (d.getD i 0).toNat ≠ p) → unpad1 d = .error .padBadPadding) ∧
        ((∀ i, d.length - p ≤ i → i < d.length → (d.getD i 0).toNat = p) → unpad1 d = .ok (d.take (d.length - p)))))
end

