-- ==== Sys2Proof/Laws/Bytes.lean ====
section
/-! SUPPORT. The laws of blocks and byte strings. -/

namespace Sys2Proof

@[simp] theorem Block.toBytes_length (b : Block) : b.toBytes.length = 16 := rfl

@[simp] theorem Block.ofBytes_toBytes (b : Block) : Block.ofBytes b.toBytes = b := rfl

theorem Block.toBytes_ofBytes (l : List Byte) (h : l.length = 16) : (Block.ofBytes l).toBytes = l := by
  match l, h with
  | [_, _, _, _, _, _, _, _, _, _, _, _, _, _, _, _], _ => rfl

/-- A block of sixteen bytes followed by more is the block of the sixteen. -/
@[simp] theorem Block.ofBytes_append (b : Block) (l : List Byte) : Block.ofBytes (b.toBytes ++ l) = b := rfl

theorem Block.xor_xor_cancel (a b : Block) : (a.xor b).xor b = a := by
  simp [Block.xor]

theorem Block.xor_comm (a b : Block) : a.xor b = b.xor a := by
  simp [Block.xor, BitVec.xor_comm]

@[simp] theorem bytesOf_nil : bytesOf [] = [] := rfl

@[simp] theorem bytesOf_cons (b : Block) (bs : List Block) : bytesOf (b :: bs) = b.toBytes ++ bytesOf bs := rfl

@[simp] theorem bytesOf_length (bs : List Block) : (bytesOf bs).length = 16 * bs.length := by
  induction bs with
  | nil => rfl
  | cons b bs ih => simp only [bytesOf_cons, List.length_append, Block.toBytes_length, List.length_cons, ih]; omega

@[simp] theorem blocksOf_length (d : List Byte) : (blocksOf d).length = d.length / 16 := by simp [blocksOf]

@[simp] theorem zeros_length (n : Nat) : (zeros n).length = n := by simp [zeros]

@[simp] theorem shiftRows_invShiftRows (s : Block) : shiftRows (invShiftRows s) = s := rfl

@[simp] theorem invShiftRows_shiftRows (s : Block) : invShiftRows (shiftRows s) = s := rfl

/-- `ShiftRows` is the row rotation of R211, on the cells of R200. -/
theorem shiftRows_cell (s : Block) (r c : Fin 4) : (shiftRows s).cell r c = s.cell r ((c + r) % 4) := by
  fin_cases r <;> fin_cases c <;> rfl

/-- `InvShiftRows` is the row rotation of R212, on the cells of R200. -/
theorem invShiftRows_cell (s : Block) (r c : Fin 4) : (invShiftRows s).cell r ((c + r) % 4) = s.cell r c := by
  fin_cases r <;> fin_cases c <;> rfl

theorem addRoundKey_addRoundKey (s k : Block) : addRoundKey (addRoundKey s k) k = s := Block.xor_xor_cancel s k

end Sys2Proof
end

