-- ==== Sys2Proof/Laws/State.lean ====
section
/-! SUPPORT. What each field of the state is after each shared update: one lemma per field per update, for
simp. -/

namespace Sys2Proof.Machine

variable (s : State)

/-! ## complete -/

@[simp] theorem complete_ie (code : ErrCode) : (s.complete code).ie = s.ie := rfl
@[simp] theorem complete_busy (code : ErrCode) : (s.complete code).busy = false := rfl
@[simp] theorem complete_done (code : ErrCode) : (s.complete code).done = true := rfl
@[simp] theorem complete_ovr (code : ErrCode) : (s.complete code).ovr = s.ovr := rfl
@[simp] theorem complete_err (code : ErrCode) : (s.complete code).err = code := rfl
@[simp] theorem complete_cmd (code : ErrCode) : (s.complete code).cmd = s.cmd := rfl
@[simp] theorem complete_src (code : ErrCode) : (s.complete code).src = s.src := rfl
@[simp] theorem complete_dst (code : ErrCode) : (s.complete code).dst = s.dst := rfl
@[simp] theorem complete_len (code : ErrCode) : (s.complete code).len = s.len := rfl
@[simp] theorem complete_aux (code : ErrCode) : (s.complete code).aux = s.aux := rfl
@[simp] theorem complete_outlen (code : ErrCode) : (s.complete code).outlen = s.outlen := rfl
@[simp] theorem complete_cmdl (code : ErrCode) : (s.complete code).cmdl = s.cmdl := rfl
@[simp] theorem complete_srcl (code : ErrCode) : (s.complete code).srcl = s.srcl := rfl
@[simp] theorem complete_dstl (code : ErrCode) : (s.complete code).dstl = s.dstl := rfl
@[simp] theorem complete_lenl (code : ErrCode) : (s.complete code).lenl = s.lenl := rfl
@[simp] theorem complete_auxl (code : ErrCode) : (s.complete code).auxl = s.auxl := rfl
@[simp] theorem complete_rk (code : ErrCode) : (s.complete code).rk = s.rk := rfl
@[simp] theorem complete_keyv (code : ErrCode) : (s.complete code).keyv = s.keyv := rfl
@[simp] theorem complete_ksz (code : ErrCode) : (s.complete code).ksz = s.ksz := rfl
@[simp] theorem complete_cbc (code : ErrCode) : (s.complete code).cbc = s.cbc := rfl
@[simp] theorem complete_ctr (code : ErrCode) : (s.complete code).ctr = s.ctr := rfl
@[simp] theorem complete_xts (code : ErrCode) : (s.complete code).xts = s.xts := rfl
@[simp] theorem complete_ghash (code : ErrCode) : (s.complete code).ghash = s.ghash := rfl
@[simp] theorem complete_memSize (code : ErrCode) : (s.complete code).memSize = s.memSize := rfl
@[simp] theorem complete_strict (code : ErrCode) : (s.complete code).strict = s.strict := rfl
@[simp] theorem complete_dmem (code : ErrCode) : (s.complete code).dmem = s.dmem := rfl
@[simp] theorem complete_epoch (code : ErrCode) : (s.complete code).epoch = s.epoch := rfl
@[simp] theorem complete_host (code : ErrCode) : (s.complete code).host = s.host := rfl
@[simp] theorem complete_busData (code : ErrCode) : (s.complete code).busData = s.busData := rfl

/-! ## memWrite -/

@[simp] theorem memWrite_ie (a : Nat) (v : List Byte) : (s.memWrite a v).ie = s.ie := rfl
@[simp] theorem memWrite_busy (a : Nat) (v : List Byte) : (s.memWrite a v).busy = s.busy := rfl
@[simp] theorem memWrite_done (a : Nat) (v : List Byte) : (s.memWrite a v).done = s.done := rfl
@[simp] theorem memWrite_ovr (a : Nat) (v : List Byte) : (s.memWrite a v).ovr = s.ovr := rfl
@[simp] theorem memWrite_err (a : Nat) (v : List Byte) : (s.memWrite a v).err = s.err := rfl
@[simp] theorem memWrite_cmd (a : Nat) (v : List Byte) : (s.memWrite a v).cmd = s.cmd := rfl
@[simp] theorem memWrite_src (a : Nat) (v : List Byte) : (s.memWrite a v).src = s.src := rfl
@[simp] theorem memWrite_dst (a : Nat) (v : List Byte) : (s.memWrite a v).dst = s.dst := rfl
@[simp] theorem memWrite_len (a : Nat) (v : List Byte) : (s.memWrite a v).len = s.len := rfl
@[simp] theorem memWrite_aux (a : Nat) (v : List Byte) : (s.memWrite a v).aux = s.aux := rfl
@[simp] theorem memWrite_outlen (a : Nat) (v : List Byte) : (s.memWrite a v).outlen = s.outlen := rfl
@[simp] theorem memWrite_cmdl (a : Nat) (v : List Byte) : (s.memWrite a v).cmdl = s.cmdl := rfl
@[simp] theorem memWrite_srcl (a : Nat) (v : List Byte) : (s.memWrite a v).srcl = s.srcl := rfl
@[simp] theorem memWrite_dstl (a : Nat) (v : List Byte) : (s.memWrite a v).dstl = s.dstl := rfl
@[simp] theorem memWrite_lenl (a : Nat) (v : List Byte) : (s.memWrite a v).lenl = s.lenl := rfl
@[simp] theorem memWrite_auxl (a : Nat) (v : List Byte) : (s.memWrite a v).auxl = s.auxl := rfl
@[simp] theorem memWrite_rk (a : Nat) (v : List Byte) : (s.memWrite a v).rk = s.rk := rfl
@[simp] theorem memWrite_keyv (a : Nat) (v : List Byte) : (s.memWrite a v).keyv = s.keyv := rfl
@[simp] theorem memWrite_ksz (a : Nat) (v : List Byte) : (s.memWrite a v).ksz = s.ksz := rfl
@[simp] theorem memWrite_cbc (a : Nat) (v : List Byte) : (s.memWrite a v).cbc = s.cbc := rfl
@[simp] theorem memWrite_ctr (a : Nat) (v : List Byte) : (s.memWrite a v).ctr = s.ctr := rfl
@[simp] theorem memWrite_xts (a : Nat) (v : List Byte) : (s.memWrite a v).xts = s.xts := rfl
@[simp] theorem memWrite_ghash (a : Nat) (v : List Byte) : (s.memWrite a v).ghash = s.ghash := rfl
@[simp] theorem memWrite_memSize (a : Nat) (v : List Byte) : (s.memWrite a v).memSize = s.memSize := rfl
@[simp] theorem memWrite_strict (a : Nat) (v : List Byte) : (s.memWrite a v).strict = s.strict := rfl
@[simp] theorem memWrite_dmem (a : Nat) (v : List Byte) : (s.memWrite a v).dmem = s.dmem.setBytes a v := rfl
@[simp] theorem memWrite_epoch (a : Nat) (v : List Byte) : (s.memWrite a v).epoch = s.epoch := rfl
@[simp] theorem memWrite_host (a : Nat) (v : List Byte) : (s.memWrite a v).host = s.host := rfl
@[simp] theorem memWrite_busData (a : Nat) (v : List Byte) : (s.memWrite a v).busData = s.busData := rfl

/-! ## writeOut -/

@[simp] theorem writeOut_ie (v : List Byte) : (s.writeOut v).ie = s.ie := rfl
@[simp] theorem writeOut_busy (v : List Byte) : (s.writeOut v).busy = s.busy := rfl
@[simp] theorem writeOut_done (v : List Byte) : (s.writeOut v).done = s.done := rfl
@[simp] theorem writeOut_ovr (v : List Byte) : (s.writeOut v).ovr = s.ovr := rfl
@[simp] theorem writeOut_err (v : List Byte) : (s.writeOut v).err = s.err := rfl
@[simp] theorem writeOut_cmd (v : List Byte) : (s.writeOut v).cmd = s.cmd := rfl
@[simp] theorem writeOut_src (v : List Byte) : (s.writeOut v).src = s.src := rfl
@[simp] theorem writeOut_dst (v : List Byte) : (s.writeOut v).dst = s.dst := rfl
@[simp] theorem writeOut_len (v : List Byte) : (s.writeOut v).len = s.len := rfl
@[simp] theorem writeOut_aux (v : List Byte) : (s.writeOut v).aux = s.aux := rfl
@[simp] theorem writeOut_outlen (v : List Byte) : (s.writeOut v).outlen = BitVec.ofNat 32 v.length := rfl
@[simp] theorem writeOut_cmdl (v : List Byte) : (s.writeOut v).cmdl = s.cmdl := rfl
@[simp] theorem writeOut_srcl (v : List Byte) : (s.writeOut v).srcl = s.srcl := rfl
@[simp] theorem writeOut_dstl (v : List Byte) : (s.writeOut v).dstl = s.dstl := rfl
@[simp] theorem writeOut_lenl (v : List Byte) : (s.writeOut v).lenl = s.lenl := rfl
@[simp] theorem writeOut_auxl (v : List Byte) : (s.writeOut v).auxl = s.auxl := rfl
@[simp] theorem writeOut_rk (v : List Byte) : (s.writeOut v).rk = s.rk := rfl
@[simp] theorem writeOut_keyv (v : List Byte) : (s.writeOut v).keyv = s.keyv := rfl
@[simp] theorem writeOut_ksz (v : List Byte) : (s.writeOut v).ksz = s.ksz := rfl
@[simp] theorem writeOut_cbc (v : List Byte) : (s.writeOut v).cbc = s.cbc := rfl
@[simp] theorem writeOut_ctr (v : List Byte) : (s.writeOut v).ctr = s.ctr := rfl
@[simp] theorem writeOut_xts (v : List Byte) : (s.writeOut v).xts = s.xts := rfl
@[simp] theorem writeOut_ghash (v : List Byte) : (s.writeOut v).ghash = s.ghash := rfl
@[simp] theorem writeOut_memSize (v : List Byte) : (s.writeOut v).memSize = s.memSize := rfl
@[simp] theorem writeOut_strict (v : List Byte) : (s.writeOut v).strict = s.strict := rfl
@[simp] theorem writeOut_dmem (v : List Byte) : (s.writeOut v).dmem = s.dmem.setBytes s.dstAddr v := rfl
@[simp] theorem writeOut_epoch (v : List Byte) : (s.writeOut v).epoch = s.epoch := rfl
@[simp] theorem writeOut_host (v : List Byte) : (s.writeOut v).host = s.host := rfl
@[simp] theorem writeOut_busData (v : List Byte) : (s.writeOut v).busData = s.busData := rfl

/-! ## loadKey -/

@[simp] theorem loadKey_ie (size : KeySize) (key : List Byte) : (s.loadKey size key).ie = s.ie := rfl
@[simp] theorem loadKey_busy (size : KeySize) (key : List Byte) : (s.loadKey size key).busy = s.busy := rfl
@[simp] theorem loadKey_done (size : KeySize) (key : List Byte) : (s.loadKey size key).done = s.done := rfl
@[simp] theorem loadKey_ovr (size : KeySize) (key : List Byte) : (s.loadKey size key).ovr = s.ovr := rfl
@[simp] theorem loadKey_err (size : KeySize) (key : List Byte) : (s.loadKey size key).err = s.err := rfl
@[simp] theorem loadKey_cmd (size : KeySize) (key : List Byte) : (s.loadKey size key).cmd = s.cmd := rfl
@[simp] theorem loadKey_src (size : KeySize) (key : List Byte) : (s.loadKey size key).src = s.src := rfl
@[simp] theorem loadKey_dst (size : KeySize) (key : List Byte) : (s.loadKey size key).dst = s.dst := rfl
@[simp] theorem loadKey_len (size : KeySize) (key : List Byte) : (s.loadKey size key).len = s.len := rfl
@[simp] theorem loadKey_aux (size : KeySize) (key : List Byte) : (s.loadKey size key).aux = s.aux := rfl
@[simp] theorem loadKey_outlen (size : KeySize) (key : List Byte) : (s.loadKey size key).outlen = s.outlen := rfl
@[simp] theorem loadKey_cmdl (size : KeySize) (key : List Byte) : (s.loadKey size key).cmdl = s.cmdl := rfl
@[simp] theorem loadKey_srcl (size : KeySize) (key : List Byte) : (s.loadKey size key).srcl = s.srcl := rfl
@[simp] theorem loadKey_dstl (size : KeySize) (key : List Byte) : (s.loadKey size key).dstl = s.dstl := rfl
@[simp] theorem loadKey_lenl (size : KeySize) (key : List Byte) : (s.loadKey size key).lenl = s.lenl := rfl
@[simp] theorem loadKey_auxl (size : KeySize) (key : List Byte) : (s.loadKey size key).auxl = s.auxl := rfl
@[simp] theorem loadKey_rk (size : KeySize) (key : List Byte) : (s.loadKey size key).rk = roundKeyFile (keyExpansion key) := rfl
@[simp] theorem loadKey_keyv (size : KeySize) (key : List Byte) : (s.loadKey size key).keyv = true := rfl
@[simp] theorem loadKey_ksz (size : KeySize) (key : List Byte) : (s.loadKey size key).ksz = size := rfl
@[simp] theorem loadKey_cbc (size : KeySize) (key : List Byte) : (s.loadKey size key).cbc = s.cbc := rfl
@[simp] theorem loadKey_ctr (size : KeySize) (key : List Byte) : (s.loadKey size key).ctr = s.ctr := rfl
@[simp] theorem loadKey_xts (size : KeySize) (key : List Byte) : (s.loadKey size key).xts = s.xts := rfl
@[simp] theorem loadKey_ghash (size : KeySize) (key : List Byte) : (s.loadKey size key).ghash = s.ghash := rfl
@[simp] theorem loadKey_memSize (size : KeySize) (key : List Byte) : (s.loadKey size key).memSize = s.memSize := rfl
@[simp] theorem loadKey_strict (size : KeySize) (key : List Byte) : (s.loadKey size key).strict = s.strict := rfl
@[simp] theorem loadKey_dmem (size : KeySize) (key : List Byte) : (s.loadKey size key).dmem = s.dmem := rfl
@[simp] theorem loadKey_epoch (size : KeySize) (key : List Byte) : (s.loadKey size key).epoch = s.epoch := rfl
@[simp] theorem loadKey_host (size : KeySize) (key : List Byte) : (s.loadKey size key).host = s.host := rfl
@[simp] theorem loadKey_busData (size : KeySize) (key : List Byte) : (s.loadKey size key).busData = s.busData := rfl

/-! ## setCv -/

@[simp] theorem setCv_ie (cv : Block) : (s.setCv cv).ie = s.ie := rfl
@[simp] theorem setCv_busy (cv : Block) : (s.setCv cv).busy = s.busy := rfl
@[simp] theorem setCv_done (cv : Block) : (s.setCv cv).done = s.done := rfl
@[simp] theorem setCv_ovr (cv : Block) : (s.setCv cv).ovr = s.ovr := rfl
@[simp] theorem setCv_err (cv : Block) : (s.setCv cv).err = s.err := rfl
@[simp] theorem setCv_cmd (cv : Block) : (s.setCv cv).cmd = s.cmd := rfl
@[simp] theorem setCv_src (cv : Block) : (s.setCv cv).src = s.src := rfl
@[simp] theorem setCv_dst (cv : Block) : (s.setCv cv).dst = s.dst := rfl
@[simp] theorem setCv_len (cv : Block) : (s.setCv cv).len = s.len := rfl
@[simp] theorem setCv_aux (cv : Block) : (s.setCv cv).aux = s.aux := rfl
@[simp] theorem setCv_outlen (cv : Block) : (s.setCv cv).outlen = s.outlen := rfl
@[simp] theorem setCv_cmdl (cv : Block) : (s.setCv cv).cmdl = s.cmdl := rfl
@[simp] theorem setCv_srcl (cv : Block) : (s.setCv cv).srcl = s.srcl := rfl
@[simp] theorem setCv_dstl (cv : Block) : (s.setCv cv).dstl = s.dstl := rfl
@[simp] theorem setCv_lenl (cv : Block) : (s.setCv cv).lenl = s.lenl := rfl
@[simp] theorem setCv_auxl (cv : Block) : (s.setCv cv).auxl = s.auxl := rfl
@[simp] theorem setCv_rk (cv : Block) : (s.setCv cv).rk = s.rk := rfl
@[simp] theorem setCv_keyv (cv : Block) : (s.setCv cv).keyv = s.keyv := rfl
@[simp] theorem setCv_ksz (cv : Block) : (s.setCv cv).ksz = s.ksz := rfl
@[simp] theorem setCv_cbc (cv : Block) : (s.setCv cv).cbc = ⟨cv, s.cbc.cbcv⟩ := rfl
@[simp] theorem setCv_ctr (cv : Block) : (s.setCv cv).ctr = s.ctr := rfl
@[simp] theorem setCv_xts (cv : Block) : (s.setCv cv).xts = s.xts := rfl
@[simp] theorem setCv_ghash (cv : Block) : (s.setCv cv).ghash = s.ghash := rfl
@[simp] theorem setCv_memSize (cv : Block) : (s.setCv cv).memSize = s.memSize := rfl
@[simp] theorem setCv_strict (cv : Block) : (s.setCv cv).strict = s.strict := rfl
@[simp] theorem setCv_dmem (cv : Block) : (s.setCv cv).dmem = s.dmem := rfl
@[simp] theorem setCv_epoch (cv : Block) : (s.setCv cv).epoch = s.epoch := rfl
@[simp] theorem setCv_host (cv : Block) : (s.setCv cv).host = s.host := rfl
@[simp] theorem setCv_busData (cv : Block) : (s.setCv cv).busData = s.busData := rfl

/-! ## setTwk -/

@[simp] theorem setTwk_ie (tw : Block) : (s.setTwk tw).ie = s.ie := rfl
@[simp] theorem setTwk_busy (tw : Block) : (s.setTwk tw).busy = s.busy := rfl
@[simp] theorem setTwk_done (tw : Block) : (s.setTwk tw).done = s.done := rfl
@[simp] theorem setTwk_ovr (tw : Block) : (s.setTwk tw).ovr = s.ovr := rfl
@[simp] theorem setTwk_err (tw : Block) : (s.setTwk tw).err = s.err := rfl
@[simp] theorem setTwk_cmd (tw : Block) : (s.setTwk tw).cmd = s.cmd := rfl
@[simp] theorem setTwk_src (tw : Block) : (s.setTwk tw).src = s.src := rfl
@[simp] theorem setTwk_dst (tw : Block) : (s.setTwk tw).dst = s.dst := rfl
@[simp] theorem setTwk_len (tw : Block) : (s.setTwk tw).len = s.len := rfl
@[simp] theorem setTwk_aux (tw : Block) : (s.setTwk tw).aux = s.aux := rfl
@[simp] theorem setTwk_outlen (tw : Block) : (s.setTwk tw).outlen = s.outlen := rfl
@[simp] theorem setTwk_cmdl (tw : Block) : (s.setTwk tw).cmdl = s.cmdl := rfl
@[simp] theorem setTwk_srcl (tw : Block) : (s.setTwk tw).srcl = s.srcl := rfl
@[simp] theorem setTwk_dstl (tw : Block) : (s.setTwk tw).dstl = s.dstl := rfl
@[simp] theorem setTwk_lenl (tw : Block) : (s.setTwk tw).lenl = s.lenl := rfl
@[simp] theorem setTwk_auxl (tw : Block) : (s.setTwk tw).auxl = s.auxl := rfl
@[simp] theorem setTwk_rk (tw : Block) : (s.setTwk tw).rk = s.rk := rfl
@[simp] theorem setTwk_keyv (tw : Block) : (s.setTwk tw).keyv = s.keyv := rfl
@[simp] theorem setTwk_ksz (tw : Block) : (s.setTwk tw).ksz = s.ksz := rfl
@[simp] theorem setTwk_cbc (tw : Block) : (s.setTwk tw).cbc = s.cbc := rfl
@[simp] theorem setTwk_ctr (tw : Block) : (s.setTwk tw).ctr = s.ctr := rfl
@[simp] theorem setTwk_xts (tw : Block) : (s.setTwk tw).xts = ⟨tw, s.xts.xtsv⟩ := rfl
@[simp] theorem setTwk_ghash (tw : Block) : (s.setTwk tw).ghash = s.ghash := rfl
@[simp] theorem setTwk_memSize (tw : Block) : (s.setTwk tw).memSize = s.memSize := rfl
@[simp] theorem setTwk_strict (tw : Block) : (s.setTwk tw).strict = s.strict := rfl
@[simp] theorem setTwk_dmem (tw : Block) : (s.setTwk tw).dmem = s.dmem := rfl
@[simp] theorem setTwk_epoch (tw : Block) : (s.setTwk tw).epoch = s.epoch := rfl
@[simp] theorem setTwk_host (tw : Block) : (s.setTwk tw).host = s.host := rfl
@[simp] theorem setTwk_busData (tw : Block) : (s.setTwk tw).busData = s.busData := rfl

/-! ## issue -/

@[simp] theorem issue_ie (w : Word) : (s.issue w).ie = s.ie := rfl
@[simp] theorem issue_busy (w : Word) : (s.issue w).busy = true := rfl
@[simp] theorem issue_done (w : Word) : (s.issue w).done = false := rfl
@[simp] theorem issue_ovr (w : Word) : (s.issue w).ovr = s.ovr := rfl
@[simp] theorem issue_err (w : Word) : (s.issue w).err = .ok := rfl
@[simp] theorem issue_cmd (w : Word) : (s.issue w).cmd = w := rfl
@[simp] theorem issue_src (w : Word) : (s.issue w).src = s.src := rfl
@[simp] theorem issue_dst (w : Word) : (s.issue w).dst = s.dst := rfl
@[simp] theorem issue_len (w : Word) : (s.issue w).len = s.len := rfl
@[simp] theorem issue_aux (w : Word) : (s.issue w).aux = s.aux := rfl
@[simp] theorem issue_outlen (w : Word) : (s.issue w).outlen = 0 := rfl
@[simp] theorem issue_cmdl (w : Word) : (s.issue w).cmdl = w := rfl
@[simp] theorem issue_srcl (w : Word) : (s.issue w).srcl = s.src := rfl
@[simp] theorem issue_dstl (w : Word) : (s.issue w).dstl = s.dst := rfl
@[simp] theorem issue_lenl (w : Word) : (s.issue w).lenl = s.len := rfl
@[simp] theorem issue_auxl (w : Word) : (s.issue w).auxl = s.aux := rfl
@[simp] theorem issue_rk (w : Word) : (s.issue w).rk = s.rk := rfl
@[simp] theorem issue_keyv (w : Word) : (s.issue w).keyv = s.keyv := rfl
@[simp] theorem issue_ksz (w : Word) : (s.issue w).ksz = s.ksz := rfl
@[simp] theorem issue_cbc (w : Word) : (s.issue w).cbc = s.cbc := rfl
@[simp] theorem issue_ctr (w : Word) : (s.issue w).ctr = s.ctr := rfl
@[simp] theorem issue_xts (w : Word) : (s.issue w).xts = s.xts := rfl
@[simp] theorem issue_ghash (w : Word) : (s.issue w).ghash = s.ghash := rfl
@[simp] theorem issue_memSize (w : Word) : (s.issue w).memSize = s.memSize := rfl
@[simp] theorem issue_strict (w : Word) : (s.issue w).strict = s.strict := rfl
@[simp] theorem issue_dmem (w : Word) : (s.issue w).dmem = s.dmem := rfl
@[simp] theorem issue_epoch (w : Word) : (s.issue w).epoch = s.epoch := rfl
@[simp] theorem issue_host (w : Word) : (s.issue w).host = s.host := rfl
@[simp] theorem issue_busData (w : Word) : (s.issue w).busData = s.busData := rfl

/-! ## Operands and reads after an update that leaves their fields alone -/

@[simp] theorem complete_srcAddr (code : ErrCode) : (s.complete code).srcAddr = s.srcAddr := rfl
@[simp] theorem complete_dstAddr (code : ErrCode) : (s.complete code).dstAddr = s.dstAddr := rfl
@[simp] theorem complete_count (code : ErrCode) : (s.complete code).count = s.count := rfl
@[simp] theorem complete_auxAddr (code : ErrCode) : (s.complete code).auxAddr = s.auxAddr := rfl
@[simp] theorem memWrite_srcAddr (a : Nat) (v : List Byte) : (s.memWrite a v).srcAddr = s.srcAddr := rfl
@[simp] theorem memWrite_dstAddr (a : Nat) (v : List Byte) : (s.memWrite a v).dstAddr = s.dstAddr := rfl
@[simp] theorem memWrite_count (a : Nat) (v : List Byte) : (s.memWrite a v).count = s.count := rfl
@[simp] theorem memWrite_auxAddr (a : Nat) (v : List Byte) : (s.memWrite a v).auxAddr = s.auxAddr := rfl
@[simp] theorem writeOut_srcAddr (v : List Byte) : (s.writeOut v).srcAddr = s.srcAddr := rfl
@[simp] theorem writeOut_dstAddr (v : List Byte) : (s.writeOut v).dstAddr = s.dstAddr := rfl
@[simp] theorem writeOut_count (v : List Byte) : (s.writeOut v).count = s.count := rfl
@[simp] theorem writeOut_auxAddr (v : List Byte) : (s.writeOut v).auxAddr = s.auxAddr := rfl
@[simp] theorem loadKey_srcAddr (size : KeySize) (key : List Byte) : (s.loadKey size key).srcAddr = s.srcAddr := rfl
@[simp] theorem loadKey_dstAddr (size : KeySize) (key : List Byte) : (s.loadKey size key).dstAddr = s.dstAddr := rfl
@[simp] theorem loadKey_count (size : KeySize) (key : List Byte) : (s.loadKey size key).count = s.count := rfl
@[simp] theorem loadKey_auxAddr (size : KeySize) (key : List Byte) : (s.loadKey size key).auxAddr = s.auxAddr := rfl
@[simp] theorem setCv_srcAddr (cv : Block) : (s.setCv cv).srcAddr = s.srcAddr := rfl
@[simp] theorem setCv_dstAddr (cv : Block) : (s.setCv cv).dstAddr = s.dstAddr := rfl
@[simp] theorem setCv_count (cv : Block) : (s.setCv cv).count = s.count := rfl
@[simp] theorem setCv_auxAddr (cv : Block) : (s.setCv cv).auxAddr = s.auxAddr := rfl
@[simp] theorem setTwk_srcAddr (tw : Block) : (s.setTwk tw).srcAddr = s.srcAddr := rfl
@[simp] theorem setTwk_dstAddr (tw : Block) : (s.setTwk tw).dstAddr = s.dstAddr := rfl
@[simp] theorem setTwk_count (tw : Block) : (s.setTwk tw).count = s.count := rfl
@[simp] theorem setTwk_auxAddr (tw : Block) : (s.setTwk tw).auxAddr = s.auxAddr := rfl
@[simp] theorem complete_dmemByte (code : ErrCode) (x : Nat) : (s.complete code).dmemByte x = s.dmemByte x := rfl
@[simp] theorem complete_encrypt (code : ErrCode) : (s.complete code).encrypt = s.encrypt := rfl
@[simp] theorem complete_decrypt (code : ErrCode) : (s.complete code).decrypt = s.decrypt := rfl
@[simp] theorem loadKey_dmemByte (size : KeySize) (key : List Byte) (x : Nat) : (s.loadKey size key).dmemByte x = s.dmemByte x := rfl
@[simp] theorem setCv_dmemByte (cv : Block) (x : Nat) : (s.setCv cv).dmemByte x = s.dmemByte x := rfl
@[simp] theorem setCv_encrypt (cv : Block) : (s.setCv cv).encrypt = s.encrypt := rfl
@[simp] theorem setCv_decrypt (cv : Block) : (s.setCv cv).decrypt = s.decrypt := rfl
@[simp] theorem setTwk_dmemByte (tw : Block) (x : Nat) : (s.setTwk tw).dmemByte x = s.dmemByte x := rfl
@[simp] theorem setTwk_encrypt (tw : Block) : (s.setTwk tw).encrypt = s.encrypt := rfl
@[simp] theorem setTwk_decrypt (tw : Block) : (s.setTwk tw).decrypt = s.decrypt := rfl
@[simp] theorem issue_dmemByte (w : Word) (x : Nat) : (s.issue w).dmemByte x = s.dmemByte x := rfl
@[simp] theorem issue_encrypt (w : Word) : (s.issue w).encrypt = s.encrypt := rfl
@[simp] theorem issue_decrypt (w : Word) : (s.issue w).decrypt = s.decrypt := rfl

end Sys2Proof.Machine
end

