-- ==== Sys2Proof/Laws/Memory.lean ====
section
/-! SUPPORT. The laws of DMEM: read after write, and that every operation keeps the canonical form. -/

namespace Sys2Proof.Machine

theorem Memory.lookup_set (m : Memory) (a : Nat) (v : Byte) (x : Nat) (h : Memory.wf m) :
    (m.set a v).lookup x = if x = a then some v else m.lookup x := by
  induction m with
  | nil => simp [Memory.set, Memory.lookup, eq_comm]
  | cons c rest ih =>
    obtain ⟨k, w⟩ := c
    obtain ⟨hk, hrest⟩ := List.pairwise_cons.mp h
    rcases Nat.lt_trichotomy a k with hak | hak | hak
    · simp only [Memory.set, hak, if_true, Memory.lookup]
      by_cases hx : x = a
      · simp [hx]
      · simp [hx, Ne.symm hx]
    · subst hak
      simp only [Memory.set, Nat.lt_irrefl, if_false, if_true, Memory.lookup]
      by_cases hx : x = a
      · simp [hx]
      · simp [hx, Ne.symm hx]
    · have h1 : ¬ a < k := by omega
      have h2 : a ≠ k := by omega
      simp only [Memory.set, h1, h2, if_false, Memory.lookup, ih hrest]
      by_cases hx : x = a
      · simp [hx, h2.symm]
      · simp [hx]

/-- The cells of `m.set a v` are cells of `m` or the one set. -/
theorem Memory.mem_set {m : Memory} {a : Nat} {v : Byte} {c : Host.Cell} (h : c ∈ m.set a v) :
    c = (a, v) ∨ c ∈ m := by
  induction m with
  | nil => simpa [Memory.set] using h
  | cons d rest ih =>
    obtain ⟨k, w⟩ := d
    simp only [Memory.set] at h
    split at h
    · simpa using h
    · split at h
      · rcases List.mem_cons.mp h with h | h
        · exact .inl h
        · exact .inr (List.mem_cons_of_mem _ h)
      · rcases List.mem_cons.mp h with h | h
        · exact .inr (h ▸ List.mem_cons_self ..)
        · exact (ih h).imp_right (List.mem_cons_of_mem _)

theorem Memory.wf_set {m : Memory} (a : Nat) (v : Byte) (h : Memory.wf m) : Memory.wf (m.set a v) := by
  induction m with
  | nil => simp [Memory.set, Memory.wf]
  | cons d rest ih =>
    obtain ⟨k, w⟩ := d
    obtain ⟨hk, hrest⟩ := List.pairwise_cons.mp h
    simp only [Memory.set]
    split
    · refine List.pairwise_cons.mpr ⟨fun c hc => ?_, h⟩
      rcases List.mem_cons.mp hc with hc | hc
      · simpa [hc]
      · have := hk c hc
        simp at this ⊢
        omega
    · split
      · rename_i hak
        exact List.pairwise_cons.mpr ⟨fun c hc => by simpa [hak] using hk c hc, hrest⟩
      · refine List.pairwise_cons.mpr ⟨fun c hc => ?_, ih hrest⟩
        rcases Memory.mem_set hc with rfl | hc
        · simp
          omega
        · exact hk c hc

theorem Memory.wf_setBytes {m : Memory} (a : Nat) (v : List Byte) (h : Memory.wf m) :
    Memory.wf (m.setBytes a v) := by
  induction v generalizing m a with
  | nil => exact h
  | cons x rest ih => exact ih (a + 1) (Memory.wf_set a x h)

theorem Memory.mem_setBytes {m : Memory} {a : Nat} {v : List Byte} {c : Host.Cell} (h : c ∈ m.setBytes a v) :
    c ∈ m ∨ (a ≤ c.1 ∧ c.1 < a + v.length) := by
  induction v generalizing m a with
  | nil => exact .inl h
  | cons x rest ih =>
    rcases ih h with h | ⟨h1, h2⟩
    · rcases Memory.mem_set h with rfl | h
      · exact .inr (by simp)
      · exact .inl h
    · exact .inr (by simp only [List.length_cons]; omega)

theorem Memory.lookup_setBytes (m : Memory) (a : Nat) (v : List Byte) (x : Nat) (h : Memory.wf m) :
    (m.setBytes a v).lookup x =
      if a ≤ x ∧ x < a + v.length then some (v.getD (x - a) 0) else m.lookup x := by
  induction v generalizing m a with
  | nil =>
    have : ¬(a ≤ x ∧ x < a + ([] : List Byte).length) := by simp only [List.length_nil]; omega
    simp only [Memory.setBytes, this, if_false]
  | cons y rest ih =>
    rw [Memory.setBytes, ih _ _ (Memory.wf_set a y h), Memory.lookup_set m a y x h]
    simp only [List.length_cons]
    rcases Nat.lt_trichotomy x a with hx | hx | hx
    · have h1 : ¬(a + 1 ≤ x ∧ x < a + 1 + rest.length) := by omega
      have h2 : ¬(a ≤ x ∧ x < a + (rest.length + 1)) := by omega
      have h3 : x ≠ a := by omega
      rw [if_neg h1, if_neg h2, if_neg h3]
    · subst hx
      simp
    · have h3 : x ≠ a := by omega
      obtain ⟨k, rfl⟩ : ∃ k, x = a + 1 + k := ⟨x - a - 1, by omega⟩
      have e1 : a + 1 + k - (a + 1) = k := by omega
      have e2 : a + 1 + k - a = k + 1 := by omega
      by_cases hlt : k < rest.length
      · simp only [h3, if_false, e1, e2]
        rw [if_pos (by omega), if_pos (by omega)]
        simp
      · simp only [h3, if_false]
        rw [if_neg (by omega), if_neg (by omega)]

/-- What a byte reads as after a string is written. -/
theorem dmemByte_memWrite (s : State) (a : Nat) (v : List Byte) (x : Nat) (h : Memory.wf s.dmem) :
    (s.memWrite a v).dmemByte x =
      if a ≤ x ∧ x < a + v.length then v.getD (x - a) 0 else s.dmemByte x := by
  unfold State.dmemByte
  rw [memWrite_dmem, memWrite_epoch, Memory.lookup_setBytes _ _ _ _ h]
  split <;> simp

/-- A written string stands where it was written, and every other byte is as before. -/
theorem dmemWritten_memWrite (s : State) (a : Nat) (v : List Byte) (h : Memory.wf s.dmem) :
    dmemWritten s (s.memWrite a v) a v := by
  constructor
  · intro i hi
    rw [dmemByte_memWrite s a v _ h, if_pos (by omega)]
    congr 1
    omega
  · intro x hx
    rw [dmemByte_memWrite s a v _ h, if_neg (by omega)]

theorem memRead_length (s : State) (a n : Nat) : (s.memRead a n).length = n := by simp [State.memRead]

theorem memRead_getD (s : State) (a n i : Nat) (h : i < n) : (s.memRead a n).getD i 0 = s.dmemByte (a + i) := by
  simp [State.memRead, h]

end Sys2Proof.Machine
end

