-- ==== Sys2Proof/Laws/Ops.lean ====
section
/-! SUPPORT. What each shared operation can do, said once: when it answers a next state, which one. -/

namespace Sys2Proof.Machine

@[simp] theorem raiseError_next (code : ErrCode) (s t : State) :
    raiseError code s = .next t ↔ t = s.complete code := by
  simp [raiseError, eq_comm]

@[simp] theorem succeed_next (s t : State) : succeed s = .next t ↔ t = s.complete .ok := by
  simp [succeed, eq_comm]

@[simp] theorem check_true (code : ErrCode) (s : State) (k : Result) : check true code s k = k := rfl

@[simp] theorem check_false (code : ErrCode) (s : State) (k : Result) :
    check false code s k = raiseError code s := rfl

/-- A check that answers a next state either failed, and raised its error, or passed. -/
theorem check_next {ok : Bool} {code : ErrCode} {s t : State} {k : Result} (h : check ok code s k = .next t) :
    (ok = false ∧ t = s.complete code) ∨ (ok = true ∧ k = .next t) := by
  cases ok with
  | true => exact .inr ⟨rfl, h⟩
  | false => exact .inl ⟨rfl, by simpa using h⟩

/-- A command that takes PAD: an illegal command, or one with a padding variant. -/
theorem withPad_next {pad : BitVec 2} {s t : State} {k : Pad → Result} (h : withPad pad s k = .next t) :
    (Pad.ofField? pad = none ∧ t = s.complete .illegalCmd) ∨ (∃ p, Pad.ofField? pad = some p ∧ k p = .next t) := by
  unfold withPad at h
  split at h
  · exact .inr ⟨_, by assumption, h⟩
  · exact .inl ⟨by assumption, by simpa using h⟩

/-- The encrypting side: BAD_LENGTH, BAD_ADDRESS, or the padded plaintext. -/
theorem encInput_next {p : Pad} {s t : State} {k : List Byte → Result} (h : encInput p s k = .next t) :
    (p = .noPad ∧ s.count % 16 ≠ 0 ∧ t = s.complete .badLength) ∨
    ((s.srcValid s.count && s.dstValid (paddedLength p s.count)) = false ∧ t = s.complete .badAddress) ∨
    k (padBytes p s.srcBytes) = .next t := by
  unfold encInput at h
  rcases check_next h with ⟨hb, ht⟩ | ⟨_, h⟩
  · cases p <;> simp at hb
    exact .inl ⟨rfl, hb, ht⟩
  · rcases check_next h with ⟨hb, ht⟩ | ⟨_, h⟩
    · exact .inr (.inl ⟨hb, ht⟩)
    · exact .inr (.inr h)

/-- The decrypting side: BAD_ADDRESS, PAD_BAD_DATA, or the ciphertext. -/
theorem decInput_next {s t : State} {k : List Byte → Result} (h : decInput s k = .next t) :
    ((s.srcValid s.count && s.dstValid s.count) = false ∧ t = s.complete .badAddress) ∨
    (s.count % 16 ≠ 0 ∧ t = s.complete .padBadData) ∨
    (s.count % 16 = 0 ∧ k s.srcBytes = .next t) := by
  unfold decInput at h
  rcases check_next h with ⟨hb, ht⟩ | ⟨_, h⟩
  · exact .inl ⟨hb, ht⟩
  · rcases check_next h with ⟨hb, ht⟩ | ⟨hb, h⟩
    · exact .inr (.inl ⟨by simpa using hb, ht⟩)
    · exact .inr (.inr ⟨by simpa using hb, h⟩)

/-- The output of a decrypting mode: written, or PAD_BAD_PADDING with nothing written. -/
theorem decOutput_next {p : Pad} {s t : State} {out : List Byte} (h : decOutput p s out = .next t) :
    (∃ d, unpadBytes p out = .ok d ∧ t = (s.writeOut d).complete .ok) ∨
    (∃ e, unpadBytes p out = .error e ∧ t = s.complete .padBadPadding) := by
  unfold decOutput at h
  split at h
  · exact .inl ⟨_, by assumption, by simpa using h⟩
  · exact .inr ⟨_, by assumption, by simpa using h⟩

/-- `writeOut` from a canonical DMEM: the string stands at DSTL and every other byte is as before. -/
theorem dmemWritten_writeOut (s : State) (v : List Byte) (h : Memory.wf s.dmem) :
    dmemWritten s (s.writeOut v) s.dstAddr v := dmemWritten_memWrite s s.dstAddr v h

/-- A successful command that ends by writing a string at DSTL. -/
theorem outputs_writeOut (s : State) (v : List Byte) (h : Memory.wf s.dmem) :
    outputs s ((s.writeOut v).complete .ok) v :=
  ⟨⟨rfl, rfl, rfl⟩, rfl, dmemWritten_writeOut s v h, rfl⟩

end Sys2Proof.Machine
end

