-- ==== Sys2Proof/Laws/Step.lean ====
section
/-! SUPPORT. What a step can do: the agents' moves, said once. -/

namespace Sys2Proof.Machine

/-- A step with no host event left is the core's turn. -/
theorem step_nil {s : State} (h : s.host = []) : step s = s.coreTurn := by simp [step, h]

/-- A step with host events left takes the first. -/
theorem step_cons {s : State} {e : HostEvent} {rest : List HostEvent} (h : s.host = e :: rest) :
    step s = State.hostStep { s with host := rest } e := by simp [step, h]

/-- The core's turn that answers a next state: idle, an illegal word, or a command run. -/
theorem coreTurn_next {s t : State} (h : s.coreTurn = .next t) :
    (s.busy = false ∧ t = s) ∨
    (s.busy = true ∧ (∃ e, decode s.cmdl = .error e) ∧ t = s.complete .illegalCmd) ∨
    (s.busy = true ∧ ∃ i, decode s.cmdl = .ok i ∧ exec i s = .next t) := by
  unfold State.coreTurn at h
  cases hb : s.busy with
  | false => simp [hb] at h; exact .inl ⟨rfl, h.symm⟩
  | true =>
    simp only [hb, if_true, State.coreStep] at h
    split at h
    · exact .inr (.inr ⟨rfl, _, by assumption, h⟩)
    · exact .inr (.inl ⟨rfl, ⟨_, by assumption⟩, by simpa using h⟩)

/-- A guarded host access that answers a next state is no breach of the host's contract in a strict state. -/
@[simp] theorem guardContract_next (s t u : State) (b : Bool) (f : Fault) :
    s.guardContract b f t = .next u ↔ (s.strict && s.busy && b) = false ∧ u = t := by
  unfold State.guardContract
  cases (s.strict && s.busy && b) <;> simp [eq_comm]

/-- A guarded host access stops only on a breach in a strict state, under the fault's name. -/
@[simp] theorem guardContract_fault (s t : State) (b : Bool) (f g : Fault) :
    s.guardContract b f t = .fault g ↔ (s.strict && s.busy && b) = true ∧ g = f := by
  unfold State.guardContract
  cases (s.strict && s.busy && b) <;> simp [eq_comm]

/-- A step that answers a next state: the core's turn, a power cycle, or a host access that is no bus error and, in
a strict state, no breach of the host's contract. -/
theorem step_next {s t : State} (h : step s = .next t) :
    (s.host = [] ∧ s.coreTurn = .next t) ∨
    ∃ e rest, s.host = e :: rest ∧
      ((e = .wait ∧ State.coreTurn { s with host := rest } = .next t) ∨
       (e = .powerOn ∧ t = State.powerCycle { s with host := rest }) ∨
       (∃ o n v, e = .regWrite o n v ∧ registerAccessOk o n = true ∧
          (s.strict && s.busy && o == 0x0C) = false ∧ t = State.writeRegister { s with host := rest } o v) ∨
       (∃ o n, e = .regRead o n ∧ registerAccessOk o n = true ∧
          t = { s with host := rest, busData := some (s.readRegister o) }) ∨
       (∃ a n v, e = .dmemWrite a n v ∧ s.dmemAccessOk a n = true ∧
          (s.strict && s.busy) = false ∧ t = State.hostWriteDmem { s with host := rest } a n v) ∨
       (∃ a n, e = .dmemRead a n ∧ s.dmemAccessOk a n = true ∧
          (s.strict && s.busy) = false ∧ t = State.hostReadDmem { s with host := rest } a n)) := by
  cases hh : s.host with
  | nil => exact .inl ⟨rfl, by rw [← h, step_nil hh]⟩
  | cons e rest =>
    rw [step_cons hh] at h
    refine .inr ⟨e, rest, rfl, ?_⟩
    cases e with
    | wait => exact .inl ⟨rfl, h⟩
    | powerOn => exact .inr (.inl ⟨rfl, by simpa [State.hostStep, eq_comm] using h⟩)
    | regWrite o n v =>
      simp only [State.hostStep] at h
      split at h
      · obtain ⟨hg, ht⟩ := (guardContract_next ..).1 h
        exact .inr (.inr (.inl ⟨o, n, v, rfl, by assumption, hg, ht⟩))
      · cases h
    | regRead o n =>
      simp only [State.hostStep] at h
      split at h
      · exact .inr (.inr (.inr (.inl ⟨o, n, rfl, by assumption, by cases h; rfl⟩)))
      · cases h
    | dmemWrite a n v =>
      simp only [State.hostStep] at h
      split at h
      · obtain ⟨hg, ht⟩ := (guardContract_next ..).1 h
        exact .inr (.inr (.inr (.inr (.inl ⟨a, n, v, rfl, by assumption, by simpa using hg, ht⟩))))
      · cases h
    | dmemRead a n =>
      simp only [State.hostStep] at h
      split at h
      · obtain ⟨hg, ht⟩ := (guardContract_next ..).1 h
        exact .inr (.inr (.inr (.inr (.inr ⟨a, n, rfl, by assumption, by simpa using hg, ht⟩))))
      · cases h

end Sys2Proof.Machine
end

