-- ==== Sys2Proof/Laws/Commands.lean ====
section
/-! SUPPORT. What each command can do, said once: an error, with nothing changed but STATUS, or its effect,
with the conditions it ran under. -/

namespace Sys2Proof.Machine

/-- The command raised an error and changed nothing but STATUS (R401). -/
def failed (s t : State) : Prop := ∃ c, c ≠ .ok ∧ t = s.complete c

theorem failed_complete {s : State} {c : ErrCode} (h : c ≠ .ok) : failed s (s.complete c) := ⟨c, h, rfl⟩

/-- A check that answers a next state raised its error or passed. -/
theorem check_failed {ok : Bool} {code : ErrCode} {s t : State} {k : Result} (hc : code ≠ .ok)
    (h : check ok code s k = .next t) : failed s t ∨ (ok = true ∧ k = .next t) :=
  (check_next h).imp (fun ⟨_, ht⟩ => ⟨code, hc, ht⟩) id

theorem withPad_failed {pad : BitVec 2} {s t : State} {k : Pad → Result} (h : withPad pad s k = .next t) :
    failed s t ∨ ∃ p, Pad.ofField? pad = some p ∧ k p = .next t :=
  (withPad_next h).imp (fun ⟨_, ht⟩ => ⟨_, by decide, ht⟩) id

theorem encInput_failed {p : Pad} {s t : State} {k : List Byte → Result} (h : encInput p s k = .next t) :
    failed s t ∨ ((p = .noPad → s.count % 16 = 0) ∧ s.srcValid s.count = true ∧
      s.dstValid (paddedLength p s.count) = true ∧ k (padBytes p s.srcBytes) = .next t) := by
  unfold encInput at h
  rcases check_failed (by decide) h with h | ⟨h1, h⟩
  · exact .inl h
  · rcases check_failed (by decide) h with h | ⟨h2, h⟩
    · exact .inl h
    · simp only [Bool.and_eq_true] at h2
      refine .inr ⟨fun hp => ?_, h2.1, h2.2, h⟩
      simpa [hp] using h1

theorem decInput_failed {s t : State} {k : List Byte → Result} (h : decInput s k = .next t) :
    failed s t ∨ (s.count % 16 = 0 ∧ s.srcValid s.count = true ∧ s.dstValid s.count = true ∧
      k s.srcBytes = .next t) := by
  unfold decInput at h
  rcases check_failed (by decide) h with h | ⟨h1, h⟩
  · exact .inl h
  · rcases check_failed (by decide) h with h | ⟨h2, h⟩
    · exact .inl h
    · simp only [Bool.and_eq_true] at h1
      exact .inr ⟨by simpa using h2, h1.1, h1.2, h⟩

theorem execNop_next {s t : State} (h : execNop s = .next t) : t = s.complete .ok := by simpa [execNop] using h

theorem execKeyLoad_next {s t : State} (h : execKeyLoad s = .next t) :
    failed s t ∨ ∃ size, KeySize.ofBytes? s.count = some size ∧ s.srcValid s.count = true ∧
      t = (s.loadKey size s.srcBytes).complete .ok := by
  unfold execKeyLoad at h
  split at h
  · exact .inl ⟨.badLength, by decide, by simpa using h⟩
  · rcases check_failed (by decide) h with h | ⟨hv, h⟩
    · exact .inl h
    · exact .inr ⟨_, by assumption, hv, by simpa using h⟩

theorem execKeyClear_next {s t : State} (h : execKeyClear s = .next t) :
    t = { s with rk := List.replicate 15 Block.zero, keyv := false, ksz := .bytes16 }.complete .ok := by
  simpa [execKeyClear] using h

theorem execKsRead_next {idx : BitVec 4} {s t : State} (h : execKsRead idx s = .next t) :
    failed s t ∨ (s.keyv = true ∧ idx.toNat ≤ s.ksz.rounds ∧ s.dstValid 16 = true ∧
      t = (s.writeOut (roundKey s.rk idx.toNat).toBytes).complete .ok) := by
  unfold execKsRead at h
  rcases check_failed (by decide) h with h | ⟨hk, h⟩
  · exact .inl h
  rcases check_failed (by decide) h with h | ⟨hi, h⟩
  · exact .inl h
  rcases check_failed (by decide) h with h | ⟨hd, h⟩
  · exact .inl h
  exact .inr ⟨hk, by simpa using hi, hd, by simpa using h⟩

theorem execStateRead_next {sel : BitVec 4} {s t : State} (h : execStateRead sel s = .next t) :
    failed s t ∨ ∃ v, s.contextRegister sel = some v ∧ s.dstValid 16 = true ∧
      t = (s.writeOut v.toBytes).complete .ok := by
  unfold execStateRead at h
  split at h
  · exact .inl ⟨.illegalCmd, by decide, by simpa using h⟩
  · rcases check_failed (by decide) h with h | ⟨hd, h⟩
    · exact .inl h
    · exact .inr ⟨_, by assumption, hd, by simpa using h⟩

theorem execGf8Mul_next {s t : State} (h : execGf8Mul s = .next t) :
    failed s t ∨ (s.srcValid s.count = true ∧ s.auxValid s.count = true ∧ s.dstValid s.count = true ∧
      t = (s.writeOut (List.zipWith gmul s.srcBytes s.auxBytes)).complete .ok) := by
  unfold execGf8Mul at h
  rcases check_failed (by decide) h with h | ⟨hv, h⟩
  · exact .inl h
  simp only [Bool.and_eq_true] at hv
  exact .inr ⟨hv.1.1, hv.1.2, hv.2, by simpa using h⟩

theorem mapBytes_next {f : Byte → Byte} {s t : State} (h : mapBytes f s = .next t) :
    failed s t ∨ (s.srcValid s.count = true ∧ s.dstValid s.count = true ∧
      t = (s.writeOut (s.srcBytes.map f)).complete .ok) := by
  unfold mapBytes at h
  rcases check_failed (by decide) h with h | ⟨hv, h⟩
  · exact .inl h
  simp only [Bool.and_eq_true] at hv
  exact .inr ⟨hv.1, hv.2, by simpa using h⟩

theorem execSboxFwd_next {s t : State} (h : execSboxFwd s = .next t) :
    failed s t ∨ (s.srcValid s.count = true ∧ s.dstValid s.count = true ∧
      t = (s.writeOut (s.srcBytes.map sbox)).complete .ok) := mapBytes_next h

theorem execSboxInv_next {s t : State} (h : execSboxInv s = .next t) :
    failed s t ∨ (s.srcValid s.count = true ∧ s.dstValid s.count = true ∧
      t = (s.writeOut (s.srcBytes.map rsbox)).complete .ok) := mapBytes_next h

theorem execGf128Mul_next {s t : State} (h : execGf128Mul s = .next t) :
    failed s t ∨ (s.srcValid 16 = true ∧ s.auxValid 16 = true ∧ s.dstValid 16 = true ∧
      t = (s.writeOut (gf128mul s.srcBlock (s.blockAt s.auxAddr)).toBytes).complete .ok) := by
  unfold execGf128Mul at h
  rcases check_failed (by decide) h with h | ⟨hv, h⟩
  · exact .inl h
  simp only [Bool.and_eq_true] at hv
  exact .inr ⟨hv.1.1, hv.1.2, hv.2, by simpa using h⟩

theorem mapBlock_next {f : Block → Block} {s t : State} (h : mapBlock f s = .next t) :
    failed s t ∨ (s.keyv = true ∧ s.count = 16 ∧ s.srcValid 16 = true ∧ s.dstValid 16 = true ∧
      t = (s.writeOut (f s.srcBlock).toBytes).complete .ok) := by
  unfold mapBlock at h
  rcases check_failed (by decide) h with h | ⟨hk, h⟩
  · exact .inl h
  rcases check_failed (by decide) h with h | ⟨hl, h⟩
  · exact .inl h
  rcases check_failed (by decide) h with h | ⟨hv, h⟩
  · exact .inl h
  simp only [Bool.and_eq_true] at hv
  exact .inr ⟨hk, by simpa using hl, hv.1, hv.2, by simpa using h⟩

theorem execBlkEnc_next {s t : State} (h : execBlkEnc s = .next t) :
    failed s t ∨ (s.keyv = true ∧ s.count = 16 ∧ s.srcValid 16 = true ∧ s.dstValid 16 = true ∧
      t = (s.writeOut (s.encrypt s.srcBlock).toBytes).complete .ok) := mapBlock_next h

theorem execBlkDec_next {s t : State} (h : execBlkDec s = .next t) :
    failed s t ∨ (s.keyv = true ∧ s.count = 16 ∧ s.srcValid 16 = true ∧ s.dstValid 16 = true ∧
      t = (s.writeOut (s.decrypt s.srcBlock).toBytes).complete .ok) := mapBlock_next h

theorem execEcbEnc_next {pad : BitVec 2} {s t : State} (h : execEcbEnc pad s = .next t) :
    failed s t ∨ ∃ p, Pad.ofField? pad = some p ∧ encryptingReady p true s ∧
      t = (s.writeOut (bytesOf ((blocksOf (padBytes p s.srcBytes)).map s.encrypt))).complete .ok := by
  unfold execEcbEnc at h
  rcases withPad_failed h with h | ⟨p, hp, h⟩
  · exact .inl h
  rcases check_failed (by decide) h with h | ⟨hk, h⟩
  · exact .inl h
  rcases encInput_failed h with h | ⟨hl, hs, hd, h⟩
  · exact .inl h
  exact .inr ⟨p, hp, ⟨hk, rfl, hl, hs, hd⟩, by simpa using h⟩

theorem execCbcEnc_next {pad : BitVec 2} {s t : State} (h : execCbcEnc pad s = .next t) :
    failed s t ∨ ∃ p r, Pad.ofField? pad = some p ∧ encryptingReady p s.cbc.cbcv s ∧
      r = cbcEncrypt s.encrypt s.cbc.cv (blocksOf (padBytes p s.srcBytes)) ∧
      t = ((s.setCv r.2).writeOut (bytesOf r.1)).complete .ok := by
  unfold execCbcEnc at h
  rcases withPad_failed h with h | ⟨p, hp, h⟩
  · exact .inl h
  rcases check_failed (by decide) h with h | ⟨hk, h⟩
  · exact .inl h
  rcases check_failed (by decide) h with h | ⟨hc, h⟩
  · exact .inl h
  rcases encInput_failed h with h | ⟨hl, hs, hd, h⟩
  · exact .inl h
  exact .inr ⟨p, _, hp, ⟨hk, hc, hl, hs, hd⟩, rfl, by simpa using h⟩

theorem execXexEnc_next {pad : BitVec 2} {s t : State} (h : execXexEnc pad s = .next t) :
    failed s t ∨ ∃ p r, Pad.ofField? pad = some p ∧ encryptingReady p s.xts.xtsv s ∧
      r = xexBlocks s.encrypt s.xts.twk (blocksOf (padBytes p s.srcBytes)) ∧
      t = ((s.setTwk r.2).writeOut (bytesOf r.1)).complete .ok := by
  unfold execXexEnc at h
  rcases withPad_failed h with h | ⟨p, hp, h⟩
  · exact .inl h
  rcases check_failed (by decide) h with h | ⟨hk, h⟩
  · exact .inl h
  rcases check_failed (by decide) h with h | ⟨hc, h⟩
  · exact .inl h
  rcases encInput_failed h with h | ⟨hl, hs, hd, h⟩
  · exact .inl h
  exact .inr ⟨p, _, hp, ⟨hk, hc, hl, hs, hd⟩, rfl, by simpa using h⟩

theorem execEcbDec_next {pad : BitVec 2} {s t : State} (h : execEcbDec pad s = .next t) :
    failed s t ∨ ∃ p d, Pad.ofField? pad = some p ∧ decryptingReady true s ∧
      unpadBytes p (bytesOf ((blocksOf s.srcBytes).map s.decrypt)) = .ok d ∧
      t = (s.writeOut d).complete .ok := by
  unfold execEcbDec at h
  rcases withPad_failed h with h | ⟨p, hp, h⟩
  · exact .inl h
  rcases check_failed (by decide) h with h | ⟨hk, h⟩
  · exact .inl h
  rcases decInput_failed h with h | ⟨hl, hs, hd, h⟩
  · exact .inl h
  rcases decOutput_next h with ⟨d, hu, ht⟩ | ⟨e, hu, ht⟩
  · exact .inr ⟨p, d, hp, ⟨hk, rfl, hs, hd, hl⟩, hu, ht⟩
  · exact .inl ⟨_, by decide, ht⟩

/-- CBC_DEC: on a padding failure the update of CV is kept (R305). -/
theorem execCbcDec_next {pad : BitVec 2} {s t : State} (h : execCbcDec pad s = .next t) :
    failed s t ∨ ∃ p r, Pad.ofField? pad = some p ∧ decryptingReady s.cbc.cbcv s ∧
      r = cbcDecrypt s.decrypt s.cbc.cv (blocksOf s.srcBytes) ∧
      ((∃ d, unpadBytes p (bytesOf r.1) = .ok d ∧ t = ((s.setCv r.2).writeOut d).complete .ok) ∨
       (∃ e, unpadBytes p (bytesOf r.1) = .error e ∧ t = (s.setCv r.2).complete .padBadPadding)) := by
  unfold execCbcDec at h
  rcases withPad_failed h with h | ⟨p, hp, h⟩
  · exact .inl h
  rcases check_failed (by decide) h with h | ⟨hk, h⟩
  · exact .inl h
  rcases check_failed (by decide) h with h | ⟨hc, h⟩
  · exact .inl h
  rcases decInput_failed h with h | ⟨hl, hs, hd, h⟩
  · exact .inl h
  exact .inr ⟨p, _, hp, ⟨hk, hc, hs, hd, hl⟩, rfl, decOutput_next h⟩

/-- XEX_DEC: on a padding failure the update of TWK is kept (R305). -/
theorem execXexDec_next {pad : BitVec 2} {s t : State} (h : execXexDec pad s = .next t) :
    failed s t ∨ ∃ p r, Pad.ofField? pad = some p ∧ decryptingReady s.xts.xtsv s ∧
      r = xexBlocks s.decrypt s.xts.twk (blocksOf s.srcBytes) ∧
      ((∃ d, unpadBytes p (bytesOf r.1) = .ok d ∧ t = ((s.setTwk r.2).writeOut d).complete .ok) ∨
       (∃ e, unpadBytes p (bytesOf r.1) = .error e ∧ t = (s.setTwk r.2).complete .padBadPadding)) := by
  unfold execXexDec at h
  rcases withPad_failed h with h | ⟨p, hp, h⟩
  · exact .inl h
  rcases check_failed (by decide) h with h | ⟨hk, h⟩
  · exact .inl h
  rcases check_failed (by decide) h with h | ⟨hc, h⟩
  · exact .inl h
  rcases decInput_failed h with h | ⟨hl, hs, hd, h⟩
  · exact .inl h
  exact .inr ⟨p, _, hp, ⟨hk, hc, hs, hd, hl⟩, rfl, decOutput_next h⟩

theorem execCbcSetiv_next {s t : State} (h : execCbcSetiv s = .next t) :
    failed s t ∨ (s.srcValid 16 = true ∧ t = { s with cbc := ⟨s.srcBlock, true⟩ }.complete .ok) := by
  unfold execCbcSetiv at h
  rcases check_failed (by decide) h with h | ⟨hv, h⟩
  · exact .inl h
  exact .inr ⟨hv, by simpa using h⟩

theorem execCtrSetctr_next {s t : State} (h : execCtrSetctr s = .next t) :
    failed s t ∨ (s.srcValid 16 = true ∧ t = { s with ctr := ⟨s.srcBlock, Block.zero, 0, true⟩ }.complete .ok) := by
  unfold execCtrSetctr at h
  rcases check_failed (by decide) h with h | ⟨hv, h⟩
  · exact .inl h
  exact .inr ⟨hv, by simpa using h⟩

theorem execXtsSettweak_next {s t : State} (h : execXtsSettweak s = .next t) :
    failed s t ∨ (s.keyv = true ∧ s.srcValid 16 = true ∧
      t = { s with xts := ⟨s.encrypt s.srcBlock, true⟩ }.complete .ok) := by
  unfold execXtsSettweak at h
  rcases check_failed (by decide) h with h | ⟨hk, h⟩
  · exact .inl h
  rcases check_failed (by decide) h with h | ⟨hv, h⟩
  · exact .inl h
  exact .inr ⟨hk, hv, by simpa using h⟩

theorem execCtrXor_next {s t : State} (h : execCtrXor s = .next t) :
    failed s t ∨ ∃ r, s.keyv = true ∧ s.ctr.ctrv = true ∧ s.srcValid s.count = true ∧ s.dstValid s.count = true ∧
      r = ctrStream s.encrypt s.ctr s.srcBytes ∧ t = ({ s with ctr := r.2 }.writeOut r.1).complete .ok := by
  unfold execCtrXor at h
  rcases check_failed (by decide) h with h | ⟨hk, h⟩
  · exact .inl h
  rcases check_failed (by decide) h with h | ⟨hc, h⟩
  · exact .inl h
  rcases check_failed (by decide) h with h | ⟨hv, h⟩
  · exact .inl h
  simp only [Bool.and_eq_true] at hv
  exact .inr ⟨_, hk, hc, hv.1, hv.2, rfl, by simpa using h⟩

theorem xtsCommand_next {body : Block → List Byte → List Byte × Block} {s t : State}
    (h : xtsCommand body s = .next t) :
    failed s t ∨ ∃ r, xtsReady s ∧ r = body s.xts.twk s.srcBytes ∧
      t = ((s.setTwk r.2).writeOut r.1).complete .ok := by
  unfold xtsCommand at h
  rcases check_failed (by decide) h with h | ⟨hk, h⟩
  · exact .inl h
  rcases check_failed (by decide) h with h | ⟨hx, h⟩
  · exact .inl h
  rcases check_failed (by decide) h with h | ⟨hl, h⟩
  · exact .inl h
  rcases check_failed (by decide) h with h | ⟨hv, h⟩
  · exact .inl h
  simp only [Bool.and_eq_true] at hv
  exact .inr ⟨_, ⟨hk, hx, by simpa using hl, hv.1, hv.2⟩, rfl, by simpa using h⟩

theorem execXtsEnc_next {s t : State} (h : execXtsEnc s = .next t) :
    failed s t ∨ ∃ r, xtsReady s ∧ r = xtsEncrypt s.encrypt s.xts.twk s.srcBytes ∧
      t = ((s.setTwk r.2).writeOut r.1).complete .ok := xtsCommand_next h

theorem execXtsDec_next {s t : State} (h : execXtsDec s = .next t) :
    failed s t ∨ ∃ r, xtsReady s ∧ r = xtsDecrypt s.decrypt s.xts.twk s.srcBytes ∧
      t = ((s.setTwk r.2).writeOut r.1).complete .ok := xtsCommand_next h

theorem execGhashInit_next {s t : State} (h : execGhashInit s = .next t) :
    failed s t ∨ (s.srcValid 16 = true ∧ s.auxValid s.count = true ∧
      t = { s with ghash := ghashStart s.srcBlock s.auxBytes }.complete .ok) := by
  unfold execGhashInit at h
  rcases check_failed (by decide) h with h | ⟨hv, h⟩
  · exact .inl h
  simp only [Bool.and_eq_true] at hv
  exact .inr ⟨hv.1, hv.2, by simpa using h⟩

theorem execGhashUpdate_next {s t : State} (h : execGhashUpdate s = .next t) :
    failed s t ∨ (s.ghash.ghph = .active ∧ s.srcValid s.count = true ∧
      t = { s with ghash := ghashData s.ghash s.srcBytes }.complete .ok) := by
  unfold execGhashUpdate at h
  rcases check_failed (by decide) h with h | ⟨hp, h⟩
  · exact .inl h
  rcases check_failed (by decide) h with h | ⟨hv, h⟩
  · exact .inl h
  exact .inr ⟨by simpa using hp, hv, by simpa using h⟩

theorem execGhashFinal_next {s t : State} (h : execGhashFinal s = .next t) :
    failed s t ∨ ∃ g, s.ghash.ghph = .active ∧ s.dstValid 16 = true ∧ g = ghashFinish s.ghash ∧
      t = ({ s with ghash := g }.writeOut g.acc.toBytes).complete .ok := by
  unfold execGhashFinal at h
  rcases check_failed (by decide) h with h | ⟨hp, h⟩
  · exact .inl h
  rcases check_failed (by decide) h with h | ⟨hv, h⟩
  · exact .inl h
  exact .inr ⟨_, by simpa using hp, hv, rfl, by simpa using h⟩

end Sys2Proof.Machine
end

