-- ==== Sys2Proof/Laws/GF.lean ====
section
/-! SUPPORT. That the tables of 40_gf_tables.md are what its rules define. -/

namespace Sys2Proof

/-- `ginv` is the inverse R162 names, with `ginv(0) = 0`, and the SBOX table is its affine transform (R163). -/
theorem sbox_eq_affine_ginv :
    ginv 0 = 0 ∧ ∀ i : Fin 256, (i ≠ 0 → gmul (BitVec.ofFin i) (ginv (BitVec.ofFin i)) = 1) ∧
      sbox (BitVec.ofFin i) = affine (ginv (BitVec.ofFin i)) := by decide +kernel

/-- The round constants are the powers of 2 (R165). -/
theorem rcon_succ : ∀ j : Fin 9, rcon (j + 1) = gmul (rcon j) 2 := by decide

end Sys2Proof
end

