-- ==== Sys2Proof/Laws/PerInstr.lean ====
section
/-! SUPPORT. Facts about every command, one lemma per constructor. -/

namespace Sys2Proof.Laws.ReservedBits

/-- The command word of a command has its reserved bits 31:20 and 15:10 clear (R120). -/
def Statement (i : Instr) : Prop := reservedClear (encode i) = true

theorem nop : Statement .nop := by unfold Statement; decide

theorem keyLoad : Statement .keyLoad := by unfold Statement; decide

theorem keyClear : Statement .keyClear := by unfold Statement; decide

theorem ksRead (idx : BitVec 4) : Statement (.ksRead idx) := by revert idx; unfold Statement; decide

theorem stateRead (sel : BitVec 4) : Statement (.stateRead sel) := by revert sel; unfold Statement; decide

theorem gf8Mul : Statement .gf8Mul := by unfold Statement; decide

theorem sboxFwd : Statement .sboxFwd := by unfold Statement; decide

theorem sboxInv : Statement .sboxInv := by unfold Statement; decide

theorem gf128Mul : Statement .gf128Mul := by unfold Statement; decide

theorem blkEnc : Statement .blkEnc := by unfold Statement; decide

theorem blkDec : Statement .blkDec := by unfold Statement; decide

theorem ecbEnc (pad : BitVec 2) : Statement (.ecbEnc pad) := by revert pad; unfold Statement; decide

theorem ecbDec (pad : BitVec 2) : Statement (.ecbDec pad) := by revert pad; unfold Statement; decide

theorem cbcSetiv : Statement .cbcSetiv := by unfold Statement; decide

theorem cbcEnc (pad : BitVec 2) : Statement (.cbcEnc pad) := by revert pad; unfold Statement; decide

theorem cbcDec (pad : BitVec 2) : Statement (.cbcDec pad) := by revert pad; unfold Statement; decide

theorem ctrSetctr : Statement .ctrSetctr := by unfold Statement; decide

theorem ctrXor : Statement .ctrXor := by unfold Statement; decide

theorem xtsSettweak : Statement .xtsSettweak := by unfold Statement; decide

theorem xexEnc (pad : BitVec 2) : Statement (.xexEnc pad) := by revert pad; unfold Statement; decide

theorem xexDec (pad : BitVec 2) : Statement (.xexDec pad) := by revert pad; unfold Statement; decide

theorem xtsEnc : Statement .xtsEnc := by unfold Statement; decide

theorem xtsDec : Statement .xtsDec := by unfold Statement; decide

theorem ghashInit : Statement .ghashInit := by unfold Statement; decide

theorem ghashUpdate : Statement .ghashUpdate := by unfold Statement; decide

theorem ghashFinal : Statement .ghashFinal := by unfold Statement; decide

end Sys2Proof.Laws.ReservedBits
end

