-- ==== Sys2Proof/Tests/Slice0.lean ====
section
/-! SUPPORT. The model's own tests: the checks of `WellFormed`, words written out from the spec's encoding, one
step per vector of spec/95_test_vectors.md, and for each obligation with hypotheses a state that meets them. Every
expected value is the spec's. -/

namespace Sys2Proof.Tests

open Sys2Proof.Machine

set_option maxRecDepth 20000
set_option Elab.async false

/-! ## WellFormed: an ill-formed term for each check -/

theorem test_wellFormed_refuses_reserved_pad :
    Instr.wellFormed (.ecbEnc 2) = false ∧ Instr.wellFormed (.ecbDec 3) = false ∧
    Instr.wellFormed (.cbcEnc 2) = false ∧ Instr.wellFormed (.cbcDec 3) = false ∧
    Instr.wellFormed (.xexEnc 2) = false ∧ Instr.wellFormed (.xexDec 3) = false := by decide

theorem test_wellFormed_refuses_reserved_selector :
    Instr.wellFormed (.stateRead 8) = false ∧ Instr.wellFormed (.stateRead 15) = false := by decide

theorem test_wellFormed_admits_the_last_legal_fields :
    Instr.wellFormed (.ecbEnc 1) = true ∧ Instr.wellFormed (.stateRead 7) = true ∧
    Instr.wellFormed (.ksRead 15) = true := by decide

/-! ## Decode: each command from its word, bit by bit: bits 31:20, IDX, bits 15:10, PAD, OP (R120, R128) -/

theorem test_decode_nop : decode 0b000000000000_0000_000000_00_00000000#32 = .ok .nop := by decide

theorem test_decode_keyLoad : decode 0b000000000000_0000_000000_00_00000001#32 = .ok .keyLoad := by decide

theorem test_decode_keyClear : decode 0b000000000000_0000_000000_00_00000010#32 = .ok .keyClear := by decide

theorem test_decode_ksRead : decode 0b000000000000_1010_000000_00_00000011#32 = .ok (.ksRead 10) := by decide

theorem test_decode_stateRead : decode 0b000000000000_0111_000000_00_00000100#32 = .ok (.stateRead 7) := by decide

theorem test_decode_gf8Mul : decode 0b000000000000_0000_000000_00_00000101#32 = .ok .gf8Mul := by decide

theorem test_decode_sboxFwd : decode 0b000000000000_0000_000000_00_00000110#32 = .ok .sboxFwd := by decide

theorem test_decode_sboxInv : decode 0b000000000000_0000_000000_00_00000111#32 = .ok .sboxInv := by decide

theorem test_decode_gf128Mul : decode 0b000000000000_0000_000000_00_00001000#32 = .ok .gf128Mul := by decide

theorem test_decode_blkEnc : decode 0b000000000000_0000_000000_00_00010000#32 = .ok .blkEnc := by decide

theorem test_decode_blkDec : decode 0b000000000000_0000_000000_00_00010001#32 = .ok .blkDec := by decide

theorem test_decode_ecbEnc :
    decode 0b000000000000_0000_000000_00_00100000#32 = .ok (.ecbEnc 0) ∧
    decode 0b000000000000_0000_000000_01_00100000#32 = .ok (.ecbEnc 1) := by decide

theorem test_decode_ecbDec :
    decode 0b000000000000_0000_000000_00_00100001#32 = .ok (.ecbDec 0) ∧
    decode 0b000000000000_0000_000000_01_00100001#32 = .ok (.ecbDec 1) := by decide

theorem test_decode_cbcSetiv : decode 0b000000000000_0000_000000_00_00101000#32 = .ok .cbcSetiv := by decide

theorem test_decode_cbcEnc :
    decode 0b000000000000_0000_000000_00_00101001#32 = .ok (.cbcEnc 0) ∧
    decode 0b000000000000_0000_000000_01_00101001#32 = .ok (.cbcEnc 1) := by decide

theorem test_decode_cbcDec :
    decode 0b000000000000_0000_000000_00_00101010#32 = .ok (.cbcDec 0) ∧
    decode 0b000000000000_0000_000000_01_00101010#32 = .ok (.cbcDec 1) := by decide

theorem test_decode_ctrSetctr : decode 0b000000000000_0000_000000_00_00110000#32 = .ok .ctrSetctr := by decide

theorem test_decode_ctrXor : decode 0b000000000000_0000_000000_00_00110001#32 = .ok .ctrXor := by decide

theorem test_decode_xtsSettweak : decode 0b000000000000_0000_000000_00_00111000#32 = .ok .xtsSettweak := by decide

theorem test_decode_xexEnc :
    decode 0b000000000000_0000_000000_00_00111001#32 = .ok (.xexEnc 0) ∧
    decode 0b000000000000_0000_000000_01_00111001#32 = .ok (.xexEnc 1) := by decide

theorem test_decode_xexDec :
    decode 0b000000000000_0000_000000_00_00111010#32 = .ok (.xexDec 0) ∧
    decode 0b000000000000_0000_000000_01_00111010#32 = .ok (.xexDec 1) := by decide

theorem test_decode_xtsEnc : decode 0b000000000000_0000_000000_00_00111011#32 = .ok .xtsEnc := by decide

theorem test_decode_xtsDec : decode 0b000000000000_0000_000000_00_00111100#32 = .ok .xtsDec := by decide

theorem test_decode_ghashInit : decode 0b000000000000_0000_000000_00_01000000#32 = .ok .ghashInit := by decide

theorem test_decode_ghashUpdate : decode 0b000000000000_0000_000000_00_01000001#32 = .ok .ghashUpdate := by decide

theorem test_decode_ghashFinal : decode 0b000000000000_0000_000000_00_01000010#32 = .ok .ghashFinal := by decide

/-- V-DEC-1: the illegal words, each under the name of its reason. -/
theorem test_decode_refuses_illegal_words :
    decode 0x00000009#32 = .error .unknownOp ∧ decode 0x000000FF#32 = .error .unknownOp ∧
    decode 0x00000043#32 = .error .unknownOp ∧ decode 0x00100000#32 = .error .reservedBits ∧
    decode 0x80000000#32 = .error .reservedBits ∧ decode 0x00000400#32 = .error .reservedBits ∧
    decode 0x00000220#32 = .error .reservedPad ∧ decode 0x00000110#32 = .error .padNotTaken ∧
    decode 0x00010010#32 = .error .idxNotTaken ∧ decode 0x00080004#32 = .error .reservedSel := by decide

/-- R128: the words of the map, KS_READ 10 and ECB_ENC with PKCS#7. -/
theorem test_encode :
    encode (.ksRead 10) = 0x000A0003#32 ∧ encode (.ecbEnc 1) = 0x00000120#32 ∧
    encode (.stateRead 7) = 0x00070004#32 ∧ encode .ghashFinal = 0x00000042#32 := by decide

/-- R120: the opcode table's 32 bits are the command word's. -/
theorem test_decodeTableWord :
    decodeTableWord 32 0x000A0003 = some (.ksRead 10) ∧ decodeTableWord 32 0x00000400 = none := by decide

/-! ## Small states -/

/-- `n` bytes written in hex, byte 0 first. -/
def hex (n x : Nat) : List Byte := beBytes n x

/-- A block written in hex. -/
def blk (x : Nat) : Block := Block.fromBe128 x

/-- DMEM with some strings written: address, length and bytes. -/
def place (m : List (Nat × Nat × Nat)) : Memory := m.foldl (fun d c => d.setBytes c.1 (hex c.2.1 c.2.2)) []

/-- The reset state with operands latched and DMEM written. -/
def operands (src dst len aux : Nat) (m : List (Nat × Nat × Nat)) : State :=
  { State.reset with
    srcl := BitVec.ofNat 32 src, dstl := BitVec.ofNat 32 dst, lenl := BitVec.ofNat 32 len,
    auxl := BitVec.ofNat 32 aux, dmem := place m }

/-- With the schedule of a key loaded. -/
def keyed (size : KeySize) (x : Nat) (s : State) : State := s.loadKey size (hex size.bytes x)

/-- With a CBC context. -/
def withCv (x : Nat) (s : State) : State := { s with cbc := ⟨blk x, true⟩ }

/-- With a CTR context without leftover keystream. -/
def withCounter (x : Nat) (s : State) : State := { s with ctr := ⟨blk x, Block.zero, 0, true⟩ }

/-- With an XEX/XTS context. -/
def withTweak (x : Nat) (s : State) : State := { s with xts := ⟨blk x, true⟩ }

/-- With an active GHASH context. -/
def withGhash (h acc : Nat) (alen dlen : Nat) (buf : Nat) (blen : Nat) (s : State) : State :=
  { s with
    ghash := ⟨blk h, blk acc, BitVec.ofNat 64 alen, BitVec.ofNat 64 dlen, blk buf, BitVec.ofNat 4 blen, .active⟩ }

/-- The result is a next state with a property. -/
def after (r : Result) (p : State → Bool) : Bool :=
  match r with
  | .next t => p t
  | .fault _ => false
  | .refused _ => false

/-- The result is an error code, with DMEM and OUTLEN as they were. -/
def fails (i : Instr) (s : State) (code : ErrCode) : Bool :=
  after (exec i s) fun t => t.err == code && t.dmem == s.dmem && t.outlen == s.outlen && t.done && !t.busy

/-- The result is a success that writes the string `v` at DSTL. -/
def writes (i : Instr) (s : State) (v : List Byte) : Bool :=
  after (exec i s) fun t => t.err == .ok && t.outlen == BitVec.ofNat 32 v.length && t.memRead s.dstAddr v.length == v

/-- The FIPS-197 C.1 key `000102..0f`. -/
def keyC : Nat := 0x000102030405060708090A0B0C0D0E0F

/-- The FIPS-197 A.1 key `2b7e1516..`. -/
def keyA : Nat := 0x2B7E151628AED2A6ABF7158809CF4F3C

/-- The two plaintext blocks of V-ECB-1. -/
def plain32 : Nat := 0x6BC1BEE22E409F96E93D7E117393172AAE2D8A571E03AC9C9EB76FAC45AF8E51

/-- The hash subkey of section 10 of the vectors. -/
def subkey : Nat := 0x66E94BD4EF8A2C3B884CFA59CA342B2E

/-! ## The step and the host port -/

/-- Section 11: NOP from reset gives STATUS = 2 and OUTLEN = 0. -/
theorem test_step_runs_the_placed_word :
    after (step (State.reset.withFetchWord 32 0x00000000))
      (fun t => t.readRegister 0x08 == 2#32 && t.readRegister 0x20 == 0#32) = true := by decide

/-- V-DEC-1: an illegal word completes with ERR = 1 and DONE. -/
theorem test_step_illegal_word :
    after (step (State.reset.withFetchWord 32 0x00000400)) (fun t => t.readRegister 0x08 == 0x00010002#32) = true := by
  decide

/-- Section 11: ID, MEMSIZE, STATUS and a reserved offset after reset. -/
theorem test_registers_after_reset :
    State.reset.readRegister 0x00 = 0x41455301#32 ∧ State.reset.readRegister 0x24 = 0x00010000#32 ∧
    State.reset.readRegister 0x08 = 0 ∧ State.reset.readRegister 0x40 = 0 := by decide

/-- Section 11: enabling the interrupt with DONE = 1 raises IRQ, and clearing DONE lowers it. -/
theorem test_irq_follows_done :
    ({ State.reset with done := true }.writeRegister 0x04 1).irq = true ∧
    (({ State.reset with done := true }.writeRegister 0x04 1).writeRegister 0x08 2).irq = false := by decide

/-- Section 11: a CMD write while BUSY = 1 is dropped and sets OVR, which a STATUS write of 4 clears. -/
theorem test_cmd_write_while_busy :
    after (step { State.reset.issue 5 with strict := false, host := [.regWrite 0x0C 4 7] })
      (fun t => t.cmd == 5 && t.cmdl == 5 && t.ovr && t.busy && !(t.writeRegister 0x08 4).ovr) = true := by decide

/-- Section 11: a DMEM read while BUSY = 1 returns 0 and sets OVR. -/
theorem test_dmem_read_while_busy :
    after (step { State.reset.issue 5 with strict := false, dmem := place [(0, 1, 9)], host := [.dmemRead 0 1] })
      (fun t => t.busData == some 0 && t.ovr) = true := by decide

/-- R405: in a strict state the same two events are faults of the host, and a write of an operand register is not. -/
theorem test_breach_is_a_fault :
    step { State.reset.issue 5 with host := [.regWrite 0x0C 4 7] } = .fault (.cmdWriteWhileBusy 7) ∧
    step { State.reset.issue 5 with host := [.dmemRead 0 1] } = .fault (.dmemAccessWhileBusy 0 1) ∧
    after (step { State.reset.issue 5 with host := [.regWrite 0x10 4 7] }) (fun t => t.src == 7 && !t.ovr) = true :=
  ⟨rfl, rfl, by decide⟩

/-- Section 11: a soft reset clears KEYV and IE, and keeps DMEM. -/
theorem test_soft_reset :
    after (step { keyed .bytes16 keyC State.reset with dmem := place [(3, 1, 9)], host := [.regWrite 0x04 4 0x80000001] })
      (fun t => !t.keyv && t.readRegister 0x04 == 0 && t.dmem == place [(3, 1, 9)]) = true := by decide +kernel

/-- Section 11: the little-endian lanes of a 16-bit write, and a 32-bit read of four bytes. -/
theorem test_dmem_lanes :
    after (step { State.reset with host := [.dmemWrite 2 2 0x1234] }) (fun t => t.dmem == place [(2, 2, 0x3412)]) = true ∧
    after (step { State.reset with dmem := place [(8, 4, 0x01020384)], host := [.dmemRead 8 4] })
      (fun t => t.busData == some 0x84030201) = true := by decide

/-- Section 11: a misaligned 16-bit DMEM access and an 8-bit register access are bus errors. -/
theorem test_bus_errors :
    step { State.reset with host := [.dmemWrite 3 2 0] } = .fault (.dmemBusError 3 2) ∧
    step { State.reset with host := [.regRead 0 1] } = .fault (.registerBusError 0 1) := by
  constructor <;> rfl

/-- R130: a command statement's operand writes, its CMD write and its wait. -/
theorem test_command_statement :
    commandEvents (.ksRead 10) none (some 0x30) none none =
      [.regWrite 0x14 4 0x30, .regWrite 0x0C 4 0x000A0003, .wait] ∧
    mwEvents 2 (hex 2 0x1234) = [.dmemWrite 2 1 0x12, .dmemWrite 3 1 0x34] := by decide

/-! ## One step of each command -/

/-- R250 and R410: NOP completes with no error; OUTLEN stays as the issue left it. -/
theorem test_nop : after (exec .nop (State.reset.issue 0)) (fun t => t.err == .ok && t.done && t.outlen == 0) = true := by
  decide

/-- V-KS-2: AES-192. -/
theorem test_keyLoad_192 :
    after (exec .keyLoad (operands 0 0 24 0 [(0, 24, 0x8E73B0F7DA0E6452C810F32B809079E562F8EAD2522C6B7B)]))
      (fun t => t.statusWord == 0x1A#32 && t.ctxInfoWord == 0xC00#32 && roundKey t.rk 13 == Block.zero &&
        roundKey t.rk 12 == blk 0xE98BA06F448C773C8ECC720401002202) = true := by decide +kernel

/-- V-KS-3: AES-256. -/
theorem test_keyLoad_256 :
    after (exec .keyLoad (operands 1 0 32 0
        [(1, 32, 0x603DEB1015CA71BE2B73AEF0857D77811F352C073B6108D72D9810A30914DFF4)]))
      (fun t => t.statusWord == 0x2A#32 && t.ctxInfoWord == 0xE00#32 &&
        roundKey t.rk 3 == blk 0xA8B09C1A93D194CDBE49846EB75D5B9A &&
        roundKey t.rk 14 == blk 0xFE4890D1E6188D0B046DF344706C631E) = true := by decide +kernel

/-- V-KS-5: KEY_CLEAR, and then a BLK_ENC without a key. -/
theorem test_keyClear :
    after (exec .keyClear (keyed .bytes32 keyC (operands 0 0 16 0 [])))
      (fun t => !t.keyv && t.ctxInfoWord == 0 && t.rk == List.replicate 15 Block.zero && fails .blkEnc t .noKey) =
      true := by decide +kernel

/-- V-KS-1: KS_READ 10. -/
theorem test_ksRead :
    writes (.ksRead 10) (keyed .bytes16 keyA (operands 0 0x30 0 0 [])) (hex 16 0xD014F9A8C9EE2589E13F0CC8B6630CA6) =
      true := by decide +kernel

/-- V-DEC-2: KS_READ 11 and 15 under AES-128, and 15 without a key. -/
theorem test_ksRead_errors :
    fails (.ksRead 11) (keyed .bytes16 keyA State.reset) .badIndex = true ∧
    fails (.ksRead 15) (keyed .bytes16 keyA State.reset) .badIndex = true ∧
    fails (.ksRead 15) State.reset .noKey = true := by decide +kernel

/-- V-GH-3: STATE_READ GH_LEN, and of GH_BUF. -/
theorem test_stateRead :
    writes (.stateRead 7) (withGhash subkey 0 20 5 (0x0388DACE60 * 2 ^ 88) 5 State.reset)
      (hex 16 0x00000000000000A00000000000000028) = true ∧
    writes (.stateRead 6) (withGhash subkey 0 20 5 (0x0388DACE60 * 2 ^ 88) 5 State.reset)
      (hex 16 0x0388DACE600000000000000000000000) = true := by decide +kernel

/-- R256: from reset STATE_READ CV writes zeros with no error. -/
theorem test_stateRead_from_reset : writes (.stateRead 0) (operands 0 65520 0 0 []) (zeros 16) = true := by
  decide +kernel

/-- V-GF8-2. -/
theorem test_gf8Mul :
    writes .gf8Mul (operands 0 0x20 4 0x10 [(0, 4, 0x575780FF), (0x10, 4, 0x831302FF)]) (hex 4 0xC1FE1B13) = true := by
  decide +kernel

/-- V-GF8-2: a range of length 0 is always valid. -/
theorem test_gf8Mul_empty :
    writes .gf8Mul (operands 0xFFFFFFFF 0xFFFFFFFF 0 0xFFFFFFFF []) [] = true := by decide +kernel

/-- V-SB-1. -/
theorem test_sboxFwd :
    writes .sboxFwd (operands 0 2 5 0 [(0, 5, 0x000153FF10)]) (hex 5 0x637CED16CA) = true := by decide +kernel

/-- V-SB-1: a range past the end of DMEM. -/
theorem test_sboxFwd_bad_address : fails .sboxFwd (operands 65535 0 2 0 []) .badAddress = true := by decide +kernel

/-- V-SB-1. -/
theorem test_sboxInv :
    writes .sboxInv (operands 0 0 5 0 [(0, 5, 0x0063ED167C)]) (hex 5 0x520053FF01) = true := by decide +kernel

/-- V-GF128-1, rows 1 and 2. -/
theorem test_gf128Mul :
    writes .gf128Mul (operands 0 65520 0 16 [(0, 16, subkey), (16, 16, 0x0388DACE60B6A392F328C2B971B2FE78)])
      (hex 16 0x5E2EC746917062882C85B0685353DEB7) = true ∧
    writes .gf128Mul (operands 0 0 0 65520 [(0, 16, 1), (65520, 16, 0x40000000000000000000000000000000)])
      (hex 16 0xE1000000000000000000000000000000) = true := by decide +kernel

/-- V-GF128-1: AUX = 65521. -/
theorem test_gf128Mul_bad_address : fails .gf128Mul (operands 0 0 0 65521 []) .badAddress = true := by decide +kernel

/-- V-SRC-1. -/
theorem test_blkEnc :
    writes .blkEnc (keyed .bytes16 0x30313233343536373839313233343536
        (operands 0 0 16 0 [(0, 16, 0x30393837363534333231313233343536)]))
      (hex 16 0xD75833384B4E51D6E637861B273AB346) = true := by decide +kernel

/-- V-AES-2. -/
theorem test_blkEnc_192 :
    writes .blkEnc (keyed .bytes24 0x000102030405060708090A0B0C0D0E0F1011121314151617
        (operands 0 65520 16 0 [(0, 16, 0x00112233445566778899AABBCCDDEEFF)]))
      (hex 16 0xDDA97CA4864CDFE06EAF70A0EC0D7191) = true := by decide +kernel

/-- V-AES-3, decrypted. -/
theorem test_blkDec_256 :
    writes .blkDec (keyed .bytes32 0x000102030405060708090A0B0C0D0E0F101112131415161718191A1B1C1D1E1F
        (operands 1 8 16 0 [(1, 16, 0x8EA2B7CA516745BFEAFC49904B496089)]))
      (hex 16 0x00112233445566778899AABBCCDDEEFF) = true := by decide +kernel

/-- V-BLK-4. -/
theorem test_blkDec_errors :
    fails .blkDec (operands 0 0 16 0 []) .noKey = true ∧
    fails .blkDec (keyed .bytes16 keyC (operands 0 0 15 0 [])) .badLength = true ∧
    fails .blkDec (keyed .bytes16 keyC (operands 0 65521 16 0 [])) .badAddress = true := by decide +kernel

/-- V-ECB-2: overlapping ranges. -/
theorem test_ecbEnc_overlap :
    after (exec (.ecbEnc 0) (keyed .bytes16 keyA (operands 0x100 0x108 32 0 [(0x100, 32, plain32)])))
      (fun t => t.memRead 0x108 32 == hex 32 0x3AD77BB40D7A3660A89ECAF32466EF97F5D3D58503B9699DE785895A96FDBAAF &&
        t.memRead 0x100 8 == hex 8 0x6BC1BEE22E409F96 && t.outlen == 32) = true := by decide +kernel

/-- V-PAD-1: PKCS#7 of the empty input; BAD_LENGTH before BAD_ADDRESS; and an output range that is too short. -/
theorem test_ecbEnc_padding :
    writes (.ecbEnc 1) (keyed .bytes16 keyA (operands 0 0 0 0 [])) (hex 16 0xA254BE88E037DDD9D79FB6411C3F9DF8) = true ∧
    fails (.ecbEnc 0) (keyed .bytes16 keyA (operands 0 65535 5 0 [])) .badLength = true ∧
    fails (.ecbEnc 1) (keyed .bytes16 keyA (operands 0 65520 16 0 [(0, 16, 0)])) .badAddress = true := by decide +kernel

/-- V-ECB-1, decrypted. -/
theorem test_ecbDec :
    writes (.ecbDec 0) (keyed .bytes16 keyA
        (operands 0 64 32 0 [(0, 32, 0x3AD77BB40D7A3660A89ECAF32466EF97F5D3D58503B9699DE785895A96FDBAAF)]))
      (hex 32 plain32) = true := by decide +kernel

/-- V-PAD-1: a whole block of padding; the empty ciphertext; BAD_ADDRESS before PAD_BAD_DATA. -/
theorem test_ecbDec_padding :
    writes (.ecbDec 1) (keyed .bytes16 keyA (operands 0 64 16 0 [(0, 16, 0xA254BE88E037DDD9D79FB6411C3F9DF8)])) [] =
      true ∧
    fails (.ecbDec 1) (keyed .bytes16 keyA (operands 0 0 0 0 [])) .padBadPadding = true ∧
    fails (.ecbDec 0) (keyed .bytes16 keyA (operands 0 0 5 0 [])) .padBadData = true ∧
    fails (.ecbDec 1) (keyed .bytes16 keyA (operands 0 65532 5 0 [])) .badAddress = true := by decide +kernel

/-- R320: CBC_SETIV needs no key. -/
theorem test_cbcSetiv :
    after (exec .cbcSetiv (operands 0x10 0 0 0 [(0x10, 16, keyC)]))
      (fun t => t.cbc == ⟨blk keyC, true⟩ && t.statusWord == 0x42#32) = true := by decide +kernel

/-- V-CBC-2: CBC_ENC with PKCS#7. -/
theorem test_cbcEnc :
    after (exec (.cbcEnc 1) (withCv keyC (keyed .bytes16 keyA (operands 0 0x200 32 0 [(0, 32, plain32)]))))
      (fun t => t.outlen == 48 && t.cbc.cv == blk 0x55E21D7100B988FFEC32FEEAFAF23538 && t.memRead 0x200 48 ==
        hex 48 0x7649ABAC8119B246CEE98E9B12E9197D5086CB9B507219EE95DB113A917678B255E21D7100B988FFEC32FEEAFAF23538) =
      true := by decide +kernel

/-- V-CBC-4. -/
theorem test_cbcEnc_errors :
    fails (.cbcEnc 1) State.reset .noKey = true ∧
    fails (.cbcEnc 1) (keyed .bytes16 keyA State.reset) .badState = true := by decide +kernel

/-- V-CBC-3: CBC_DEC in place. -/
theorem test_cbcDec_in_place :
    after (exec (.cbcDec 0) (withCv keyC (keyed .bytes16 keyA (operands 0x100 0x100 32 0
        [(0x100, 32, 0x7649ABAC8119B246CEE98E9B12E9197D5086CB9B507219EE95DB113A917678B2)]))))
      (fun t => t.memRead 0x100 32 == hex 32 plain32 && t.cbc.cv == blk 0x5086CB9B507219EE95DB113A917678B2) =
      true := by decide +kernel

/-- V-CBC-2: PAD_BAD_PADDING keeps the update of CV and writes nothing. -/
theorem test_cbcDec_bad_padding :
    after (exec (.cbcDec 1) (withCv keyC (keyed .bytes16 keyA (operands 0 0x300 32 0
        [(0, 32, 0x7649ABAC8119B246CEE98E9B12E9197D5086CB9B507219EE95DB113A917678B2)]))))
      (fun t => t.err == .padBadPadding && t.outlen == 0 && t.dmem.lookup 0x300 == none &&
        t.cbc.cv == blk 0x5086CB9B507219EE95DB113A917678B2) = true := by decide +kernel

/-- R360. -/
theorem test_ctrSetctr :
    after (exec .ctrSetctr (operands 0x10 0 0 0 [(0x10, 16, 0x03030303030303030303030303030303)]))
      (fun t => t.ctr == ⟨blk 0x03030303030303030303030303030303, Block.zero, 0, true⟩) = true := by decide +kernel

/-- V-SRC-2. -/
theorem test_ctrXor :
    after (exec .ctrXor (withCounter 0x03030303030303030303030303030303
        (keyed .bytes16 0x01010101010101010101010101010101 (operands 0 0x40 33 0
          [(0, 33, 0x020202020202020202020202020202020202020202020202020202020202020202)]))))
      (fun t => t.memRead 0x40 33 == hex 33 0x643E05197978D745A9105FD84CD7E6B15F66C6174B25EA24E6F91909B7DD84FB86 &&
        t.ctxInfoWord == 0xA0F#32 && t.ctr.cnt == blk 0x03030303030303030303030303030306 &&
        t.ctr.ksbuf == blk 0x000C84CC89B79072CD5C68AADF6BFE96 && t.statusWord == 0x8A#32) = true := by decide +kernel

/-- V-CTR-2: fewer bytes than the leftover; the counter stays. -/
theorem test_ctrXor_leftover :
    after (exec .ctrXor { keyed .bytes16 0x01010101010101010101010101010101 (operands 0 0 3 0 [(0, 3, 0)]) with
        ctr := ⟨blk 0x03030303030303030303030303030304, blk 0x003C071B7B7AD547AB125DDA4ED5E4B3, 15, true⟩ })
      (fun t => t.memRead 0 3 == hex 3 0x3C071B &&
        t.ctr == ⟨blk 0x03030303030303030303030303030304, blk 0x000000007B7AD547AB125DDA4ED5E4B3, 12, true⟩) =
      true := by decide +kernel

/-- V-XEX-1: the initial tweak under the zero key. -/
theorem test_xtsSettweak :
    after (exec .xtsSettweak (keyed .bytes16 0 (operands 0 0 0 0 [(0, 16, 0)]))) (fun t => t.xts == ⟨blk subkey, true⟩) =
      true := by decide +kernel

/-- V-XEX-1. -/
theorem test_xexEnc :
    after (exec (.xexEnc 1) (withTweak subkey (keyed .bytes16 keyA
        (operands 0 0x100 20 0 [(0, 20, 0x000102030405060708090A0B0C0D0E0F10111213)]))))
      (fun t => t.memRead 0x100 32 == hex 32 0x3DD890F1410E5D9271036740D872B6C51DC1BBFE66D0769C5561AD0795A8CA24 &&
        t.xts.twk == blk 0x98A52F51BF2BB2EC2032E96729D3ACB8 && t.outlen == 32) = true := by decide +kernel

/-- V-XEX-1, reversed with and without unpadding. -/
theorem test_xexDec :
    writes (.xexDec 1) (withTweak subkey (keyed .bytes16 keyA
        (operands 0 0x100 32 0 [(0, 32, 0x3DD890F1410E5D9271036740D872B6C51DC1BBFE66D0769C5561AD0795A8CA24)])))
      (hex 20 0x000102030405060708090A0B0C0D0E0F10111213) = true ∧
    writes (.xexDec 0) (withTweak subkey (keyed .bytes16 keyA
        (operands 0 0x100 32 0 [(0, 32, 0x3DD890F1410E5D9271036740D872B6C51DC1BBFE66D0769C5561AD0795A8CA24)])))
      (hex 32 0x000102030405060708090A0B0C0D0E0F101112130C0C0C0C0C0C0C0C0C0C0C0C) = true := by decide +kernel

/-- V-XTS-3: 17 bytes, from T0. -/
theorem test_xtsEnc_stealing :
    after (exec .xtsEnc (withTweak 0x775D1BE20E07015ED7585459144A09E1
        (keyed .bytes16 0xFFFEFDFCFBFAF9F8F7F6F5F4F3F2F1F0
          (operands 0 0x40 17 0 [(0, 17, 0x000102030405060708090A0B0C0D0E0F10)]))))
      (fun t => t.memRead 0x40 17 == hex 17 0x6C1625DB4671522D3D7599601DE7CA09ED && t.outlen == 17 &&
        t.xts.twk == blk 0x55746D883B1C04785D63516551282584) = true := by decide +kernel

/-- V-XTS-1: two whole blocks. -/
theorem test_xtsEnc_aligned :
    writes .xtsEnc (withTweak subkey (keyed .bytes16 0 (operands 0 0x40 32 0 [(0, 32, 0)])))
      (hex 32 0x917CF69EBD68B2EC9B9FE9A3EADDA692CD43D2F59598ED858C02C2652FBF922E) = true := by decide +kernel

/-- V-XTS-3, decrypted. -/
theorem test_xtsDec_stealing :
    after (exec .xtsDec (withTweak 0x775D1BE20E07015ED7585459144A09E1
        (keyed .bytes16 0xFFFEFDFCFBFAF9F8F7F6F5F4F3F2F1F0
          (operands 0 0x40 17 0 [(0, 17, 0x6C1625DB4671522D3D7599601DE7CA09ED)]))))
      (fun t => t.memRead 0x40 17 == hex 17 0x000102030405060708090A0B0C0D0E0F10 &&
        t.xts.twk == blk 0x55746D883B1C04785D63516551282584) = true := by decide +kernel

/-- V-XTS-6: the length and state errors. -/
theorem test_xtsDec_errors :
    fails .xtsDec (withTweak 0 (keyed .bytes16 0 (operands 0 0 15 0 []))) .badLength = true ∧
    fails .xtsDec (keyed .bytes16 0 (operands 0 0 15 0 [])) .badState = true := by decide +kernel

/-- V-GH-3: 20 bytes of associated data. -/
theorem test_ghashInit :
    after (exec .ghashInit (operands 0 0 20 0x20
        [(0, 16, subkey), (0x20, 20, 0xFEEDFACEDEADBEEFFEEDFACEDEADBEEFABADDAD2)]))
      (fun t => t.ghash ==
        ⟨blk subkey, blk 0x46439313BA91144D50264E85B82FDD27, 20, 0, Block.zero, 0, .active⟩) = true := by decide +kernel

/-- V-GH-2: the second of two pieces, 9 bytes after 7. -/
theorem test_ghashUpdate :
    after (exec .ghashUpdate (withGhash subkey 0 0 7 (0x0388DACE60B6A3 * 2 ^ 72) 7
        (operands 0 0 9 0 [(0, 9, 0x92F328C2B971B2FE78)])))
      (fun t => t.ghash == ⟨blk subkey, blk 0x5E2EC746917062882C85B0685353DEB7, 0, 16, Block.zero, 0, .active⟩) =
      true := by decide +kernel

/-- V-GH-4: from reset. -/
theorem test_ghash_errors :
    fails .ghashUpdate State.reset .badState = true ∧ fails .ghashFinal State.reset .badState = true ∧
    fails .ghashFinal (withGhash subkey 0 0 0 0 0 (operands 0 65535 0 0 [])) .badAddress = true := by decide +kernel

/-- V-GH-3: the result, with a partial block of 5 bytes. -/
theorem test_ghashFinal :
    after (exec .ghashFinal (withGhash subkey 0x46439313BA91144D50264E85B82FDD27 20 5 (0x0388DACE60 * 2 ^ 88) 5
        (operands 0 8 0 0 [])))
      (fun t => t.memRead 8 16 == hex 16 0x986EC039E11338534C4F577957CFDC60 && t.statusWord == 0x402#32 &&
        t.ghash.blen == 0) = true := by decide +kernel

/-! ## The functions, against their vectors -/

/-- V-GF8-1. -/
theorem test_gmul :
    gmul 0x57 0x83 = 0xC1 ∧ gmul 0x57 0x02 = 0xAE ∧ gmul 0x80 0x02 = 0x1B ∧ gmul 0xFF 0xFF = 0x13 ∧
    gmul 0x53 0xCA = 0x01 := by decide +kernel

/-- V-TR-1 and V-TR-2. -/
theorem test_transforms :
    shiftRows (blk keyC) = blk 0x00050A0F04090E03080D02070C01060B ∧
    invShiftRows (blk keyC) = blk 0x000D0A0704010E0B0805020F0C090603 ∧
    mixColumns (blk 0xDB135345F20A225C01010101C6C6C6C6) = blk 0x8E4DA1BC9FDC589D01010101C6C6C6C6 ∧
    invMixColumns (blk 0x8E4DA1BC9FDC589D01010101C6C6C6C6) = blk 0xDB135345F20A225C01010101C6C6C6C6 := by decide +kernel

/-- V-XD-1. -/
theorem test_xtsDouble :
    xtsDouble (blk 0x80) = blk 0x87000000000000000000000000000000 ∧
    xtsDouble (blk 0x80000000000000000000000000000080) = blk 0x87010000000000000000000000000000 ∧
    xtsDouble (blk subkey) = blk 0xCCD297A8DF1559761099F4B39469565C := by decide +kernel

/-- V-CTR-3: the counter wraps. -/
theorem test_incCounter :
    incCounter (blk (2 ^ 128 - 1)) = Block.zero ∧ incCounter (blk 0xFF) = blk 0x100 := by decide +kernel

/-! ## States that meet the obligations' hypotheses, each clause at the edges of its range -/

/-- DMEM with sixteen bytes at 0 and sixteen at the end. -/
def edgeMemory : List (Nat × Nat × Nat) := [(0, 16, keyC), (65520, 16, subkey)]

/-- The reset state with a key of each size and the operands given. -/
def ready (size : KeySize) (src dst len aux : Nat) : State := keyed size keyC (operands src dst len aux edgeMemory)

/-- Every context loaded, under a 16-byte key. -/
def loaded (src dst len : Nat) : State :=
  withGhash subkey 0 20 5 (0x0388DACE60 * 2 ^ 88) 5
    { withTweak subkey (withCv keyC (ready .bytes16 src dst len 0)) with
      ctr := ⟨blk 7, blk 0x0102, 2, true⟩ }

/-- A command in flight on every context, the host to read STATUS next. -/
def inFlight (w : Word) (events : List HostEvent) : State :=
  { (loaded 0 65504 16).issue w with srcl := 0, dstl := 65504, lenl := 16, host := events }

theorem witness_DecodeOfEncodedCommandIsTheCommand :
    Instr.wellFormed (.xexDec 1) = true ∧ Instr.wellFormed (.stateRead 7) = true ∧
    Instr.wellFormed (.ksRead 15) = true := by decide

theorem witness_EncodeOfDecodedWordIsTheWord :
    decode 0x0000013A#32 = .ok (.xexDec 1) ∧ decode 0x00070004#32 = .ok (.stateRead 7) := by decide

/-- The edges of the list of R129. -/
theorem witness_IllegalWordsCompleteWithIllegalCmd :
    (State.reset.issue 0x43).busy = true ∧ illegalWord (State.reset.issue 0x43).cmdl ∧
    ∀ w ∈ ([0x09, 0x0F, 0x12, 0x1F, 0x22, 0x27, 0x2B, 0x2F, 0x32, 0x37, 0x3D, 0x3F, 0xFF, 0x00100000, 0x80000000,
      0x00000400, 0x00008000, 0x00000220, 0x00000110, 0x00010010, 0x00080004] : List Word), illegalWord w := by
  refine ⟨rfl, ?_, ?_⟩ <;> simp [illegalWord, State.issue]

/-- Words next to the list of R129 that are not on it. -/
theorem witness_legal_words :
    ∀ w ∈ ([0x08, 0x42, 0x00070004, 0x000F0003, 0x0000013A] : List Word), ¬illegalWord w := by
  simp [illegalWord]

theorem witness_StepRunsTheDecodedCommand :
    (inFlight 0x28 []).busy = true ∧ decode (inFlight 0x28 []).cmdl = .ok .cbcSetiv ∧ (inFlight 0x28 []).host = [] ∧
    (inFlight 0x28 [.wait, .wait]).host = .wait :: [.wait] ∧
    State.reset.busy = false ∧ State.reset.host = [] ∧
    { State.reset with host := [.wait] }.host = .wait :: [] := by decide +kernel

theorem witness_CmdWriteIssuesOrIsDropped :
    (inFlight 0x28 [.regWrite 0x0C 4 1]).host = .regWrite 0x0C 4 1 :: [] ∧
    (inFlight 0x28 [.regWrite 0x0C 4 1]).busy = true ∧
    (inFlight 0x28 [.regWrite 0x0C 4 1]).strict = true ∧
    { inFlight 0x28 [.regWrite 0x0C 4 1] with strict := false }.host = .regWrite 0x0C 4 1 :: [] ∧
    { inFlight 0x28 [.regWrite 0x0C 4 1] with strict := false }.busy = true ∧
    { State.reset with host := [.regWrite 0x0C 4 0xFFFFFFFF] }.busy = false := by decide +kernel

theorem witness_HostDmemAccessesAreLittleEndian :
    Memory.wf (ready .bytes16 0 0 0 0).dmem ∧ (ready .bytes16 0 0 0 0).busy = false ∧
    (4 : Nat) ∣ 65532 ∧ 65532 + 4 ≤ (ready .bytes16 0 0 0 0).memSize ∧
    65535 % 1 = 0 ∧ 65535 + 1 ≤ (ready .bytes16 0 0 0 0).memSize ∧
    ¬(65536 + 1 ≤ (ready .bytes16 0 0 0 0).memSize) ∧ ¬(65534 % 4 = 0) ∧ ¬(3 % 2 = 0) ∧
    { ready .bytes16 0 0 0 0 with host := [.dmemWrite 65532 4 7] }.host = .dmemWrite 65532 4 7 :: [] ∧
    { ready .bytes16 0 0 0 0 with host := [.dmemRead 3 2] }.host = .dmemRead 3 2 :: [] := by decide +kernel

theorem witness_DmemAccessWhileBusyIsDropped :
    (inFlight 0x28 []).busy = true ∧ (inFlight 0x28 []).strict = true ∧
    { inFlight 0x28 [.dmemRead 65532 4] with strict := false }.busy = true ∧
    { inFlight 0x28 [.dmemRead 65532 4] with strict := false }.dmemAccessOk 65532 4 = true ∧
    (inFlight 0x28 []).dmemAccessOk 65532 4 = true ∧
    (inFlight 0x28 []).dmemAccessOk 65535 1 = true ∧
    (inFlight 0x28 [.dmemRead 65532 4]).host = .dmemRead 65532 4 :: [] ∧
    (inFlight 0x28 [.dmemWrite 65535 1 3]).host = .dmemWrite 65535 1 3 :: [] := by decide +kernel

/-- The faults of R405, one of each name and at the edges of their ranges, and a safe run that goes on in a strict
state and in one that is not. -/
theorem witness_OnlyHostErrorsStopTheMachine :
    step { State.reset with host := [.regWrite 256 4 0] } = .fault (.registerBusError 256 4) ∧
    step { State.reset with host := [.dmemRead 65535 2] } = .fault (.dmemBusError 65535 2) ∧
    step (inFlight 0x28 [.dmemRead 65535 2]) = .fault (.dmemBusError 65535 2) ∧
    step (inFlight 0x28 [.dmemWrite 65535 1 2]) = .fault (.dmemAccessWhileBusy 65535 1) ∧
    step (inFlight 0x28 [.regWrite 0x0C 2 1]) = .fault (.registerBusError 0x0C 2) ∧
    step (inFlight 0x28 [.regWrite 0x0C 4 1]) = .fault (.cmdWriteWhileBusy 1) ∧
    registerAccessOk 252 4 = true ∧ State.reset.strict = true ∧
    safeRun 2 { State.reset with host := [.dmemWrite 0 1 5, .dmemRead 0 1] } = true ∧
    safeRun 2 (inFlight 0x28 [.wait, .regWrite 0x0C 4 1]) = true ∧
    safeRun 2 { inFlight 0x28 [.wait, .regWrite 0x0C 4 1] with strict := false } = true ∧
    safeRun 1 (inFlight 0x28 [.regWrite 0x0C 4 1]) = false := by
  refine ⟨rfl, rfl, rfl, rfl, rfl, rfl, ?_, rfl, ?_, ?_, ?_, ?_⟩ <;> decide +kernel

theorem witness_OvrRecordsContractBreaches :
    (∃ t, step { inFlight 0x28 [.dmemRead 0 1] with strict := false } = .next t) ∧
    { inFlight 0x28 [.dmemRead 0 1] with strict := false }.breaksContract = true ∧
    (∃ t, step { State.reset with ovr := true, host := [.regRead 8 4] } = .next t ∧ t.ovr = true) ∧
    { State.reset with ovr := true, host := [.regRead 8 4] }.breaksContract = false ∧
    (∃ t, step { State.reset with ovr := true, host := [.regWrite 8 4 4] } = .next t ∧ t.ovr = false) := by
  refine ⟨⟨_, rfl⟩, by decide +kernel, ⟨_, rfl, rfl⟩, by decide, ⟨_, rfl, rfl⟩⟩

theorem witness_RegisterMapReadsAndWrites :
    State.reset.memSize ≤ Config.memSizeMax ∧ 0x2C ≤ 0xFC ∧ 0x2C % 4 = 0 ∧ 0xFC % 4 = 0 ∧ 0xFC < 256 ∧
    { State.reset with host := [.regRead 0xFC 4] }.host = .regRead 0xFC 4 :: [] ∧
    { State.reset with host := [.regWrite 0 4 7] }.host = .regWrite 0 4 7 :: [] ∧
    { State.reset with host := [.regWrite 0x0C 4 7] }.host = .regWrite 0x0C 4 7 :: [] ∧ State.reset.busy = false ∧
    { inFlight 0x28 [.regWrite 0x0C 4 7] with strict := false }.host = .regWrite 0x0C 4 7 :: [] ∧
    { inFlight 0x28 [.regWrite 0x0C 4 7] with strict := false }.strict = false ∧
    (0x7FFFFFFF#32).getLsbD 31 = false := by decide +kernel

theorem witness_IrqFollowsCompletionAndEnable :
    (∃ t, exec .nop { State.reset with ie := true } = .next t) ∧ State.reset.busy = false ∧
    (2#32).getLsbD 1 = true ∧ (0x80000000#32).getLsbD 31 = true ∧ (1#32).getLsbD 31 = false :=
  ⟨⟨_, rfl⟩, by decide, by decide, by decide, by decide⟩

theorem witness_ResetValuesMeetTheInvariant :
    (inFlight 0x28 [.powerOn]).host = .powerOn :: [] ∧ Config.memSizeMin ≤ 16 ∧ 16 ≤ Config.memSizeMax ∧ Config.memSizeMin ≤ 2147483648 ∧
    2147483648 ≤ Config.memSizeMax := by decide +kernel

theorem witness_SoftResetKeepsOnlyDmem :
    (inFlight 0x28 [.regWrite 0x04 4 0x80000001]).host = .regWrite 0x04 4 0x80000001 :: [] ∧
    (0x80000001#32).getLsbD 31 = true := by decide +kernel

theorem inFlight_key : (inFlight 0x28 []).KeyInv := by
  refine ⟨fun _ => ⟨hex 16 keyC, by decide +kernel, rfl⟩, fun h => ?_⟩
  exact absurd h (by decide +kernel)

/-- A keyed state with every context loaded and a command in flight meets the invariant. -/
theorem inFlight_inv : (inFlight 0x28 []).Inv where
  memSizeLegal := by decide +kernel
  dmem := ⟨by decide +kernel, by decide +kernel⟩
  key := inFlight_key
  flight := by unfold State.FlightInv; decide +kernel
  unloaded := by unfold State.UnloadedInv; decide +kernel
  ctr := by
    have h : ∀ i : Fin 14, (inFlight 0x28 []).ctr.ksbuf.get i = 0 := by decide +kernel
    exact fun i hi => h ⟨i, hi⟩
  ghash := by
    have h : ∀ i : Fin 16, 5 ≤ i.val → (inFlight 0x28 []).ghash.buf.get i = 0 := by decide +kernel
    exact fun i hi hj => h ⟨i, hj⟩ hi

theorem witness_StepKeepsTheInvariant :
    (inFlight 0x28 []).Inv ∧ ∃ t, step (inFlight 0x28 []) = .next t ∧ t.err = .ok :=
  ⟨inFlight_inv, _, rfl, by decide +kernel⟩

/-- The hypothesis of the statements about every command: CommandsKeepTheHostSide, OnlyKeyCommandsWriteRoundKeys,
CommandsKeepOtherContexts and ErrorCodeIsTheSmallestCause. -/
theorem witness_exec_answers_next :
    (∃ t, exec .gf128Mul (loaded 0 65520 16) = .next t ∧ t.err = .ok) ∧
    (∃ t, exec .keyLoad (loaded 0 0 20) = .next t ∧ t.err = .badLength) ∧
    Instr.gf128Mul ≠ .keyLoad ∧ Instr.gf128Mul ≠ .keyClear ∧ Instr.gf128Mul ≠ .cbcSetiv ∧
    Instr.gf128Mul ≠ .ctrXor ∧ Instr.gf128Mul ≠ .xtsEnc ∧ Instr.gf128Mul ≠ .ghashFinal :=
  ⟨⟨_, rfl, by decide +kernel⟩, ⟨_, rfl, by decide +kernel⟩, by decide, by decide, by decide, by decide, by decide,
    by decide⟩

theorem witness_UnusedOperandsAreIgnored :
    ignoresSrc (.ksRead 3) ∧ ignoresDst .ghashUpdate ∧ ignoresLen .gf128Mul ∧ ignoresAux (.ecbEnc 1) ∧
    ¬ignoresAux .ghashInit := by
  simp [ignoresSrc, ignoresDst, ignoresLen, ignoresAux]

theorem witness_ErrorsChangeNothingElse :
    after (exec .gf128Mul (loaded 65521 0 16)) (fun t => t.err == .badAddress) = true ∧
    after (exec (.ecbDec 1) (loaded 0 16 16)) (fun t => t.err == .padBadPadding) = true ∧
    after (exec (.cbcDec 1) (loaded 0 16 16)) (fun t => t.err == .padBadPadding) = true ∧
    after (exec (.xexDec 1) (loaded 0 16 16)) (fun t => t.err == .padBadPadding) = true := by decide +kernel

theorem witness_KeyUsingCommandsRaiseNoKey :
    Instr.wellFormed .ctrXor = true ∧ State.reset.keyv = false ∧ fails .ctrXor State.reset .noKey = true ∧
    fails .ctrSetctr State.reset .noKey = false := by decide +kernel

theorem witness_KeyLoadExpandsTheKey :
    (ready .bytes16 0 0 17 0).count = 17 ∧ (ready .bytes16 65520 0 16 0).srcValid 16 = true ∧
    (ready .bytes16 65521 0 16 0).srcValid 16 = false ∧ (ready .bytes16 65512 0 24 0).srcValid 24 = true ∧
    (ready .bytes16 65505 0 32 0).srcValid 32 = false ∧
    (ready .bytes16 65504 0 32 0).count = 32 ∧ (ready .bytes16 65504 0 32 0).srcValid 32 = true := by decide +kernel

theorem witness_KsReadWritesTheRoundKey :
    Memory.wf (ready .bytes16 0 65520 0 0).dmem ∧ State.reset.keyv = false ∧
    (ready .bytes16 0 65520 0 0).keyv = true ∧ (ready .bytes16 0 0 0 0).ksz.rounds < (11#4).toNat ∧
    (10#4).toNat ≤ (ready .bytes16 0 65520 0 0).ksz.rounds ∧ (14#4).toNat ≤ (ready .bytes32 0 0 0 0).ksz.rounds ∧
    (ready .bytes16 0 65521 0 0).dstValid 16 = false ∧ (ready .bytes16 0 65520 0 0).dstValid 16 = true := by
  decide +kernel

theorem witness_StateReadWritesTheContextRegister :
    Memory.wf (loaded 0 65520 0).dmem ∧ 8 ≤ (8#4).toNat ∧ (7#4).toNat < 8 ∧ (loaded 0 65521 0).dstValid 16 = false ∧
    (loaded 0 65520 0).dstValid 16 = true := by decide +kernel

theorem witness_Gf8MulWritesTheProducts :
    Memory.wf (ready .bytes16 65520 65520 16 65520).dmem ∧
    (ready .bytes16 65520 65520 16 65520).srcValid 16 = true ∧ (ready .bytes16 65520 65520 16 65520).auxValid 16 = true ∧
    (ready .bytes16 65520 65520 16 65520).dstValid 16 = true ∧ (ready .bytes16 0 0 16 65521).auxValid 16 = false ∧
    (operands 4294967295 0 0 0 []).srcValid 0 = true := by decide +kernel

theorem witness_SboxCommandsMapTheBytes :
    (Instr.sboxFwd = .sboxFwd ∧ sbox = sbox) ∧ (Instr.sboxInv = .sboxInv ∧ rsbox = rsbox) ∧
    Memory.wf (ready .bytes16 65520 0 16 0).dmem ∧ (ready .bytes16 65521 0 16 0).srcValid 16 = false ∧
    (ready .bytes16 65520 0 16 0).srcValid 16 = true ∧ (ready .bytes16 65520 0 16 0).dstValid 16 = true :=
  ⟨⟨rfl, rfl⟩, ⟨rfl, rfl⟩, by decide +kernel, by decide +kernel, by decide +kernel, by decide +kernel⟩

theorem witness_Gf128MulWritesTheProduct :
    Memory.wf (ready .bytes16 65520 65520 0 65520).dmem ∧ (ready .bytes16 65520 65520 0 65520).srcValid 16 = true ∧
    (ready .bytes16 65520 65520 0 65520).auxValid 16 = true ∧ (ready .bytes16 65520 65520 0 65520).dstValid 16 = true ∧
    (ready .bytes16 0 65521 0 0).dstValid 16 = false := by decide +kernel

theorem witness_BlkCommandsCipherOneBlock :
    Memory.wf (ready .bytes24 0 65520 16 0).dmem ∧ State.reset.keyv = false ∧ (ready .bytes24 0 0 15 0).count ≠ 16 ∧
    (ready .bytes24 0 0 17 0).count ≠ 16 ∧ (ready .bytes24 0 65520 16 0).keyv = true ∧
    (ready .bytes24 0 65520 16 0).count = 16 ∧ (ready .bytes24 0 65521 16 0).dstValid 16 = false ∧
    (ready .bytes24 0 65520 16 0).srcValid 16 = true ∧ (ready .bytes24 0 65520 16 0).dstValid 16 = true := by
  decide +kernel

theorem witness_SetCommandsLoadTheirContexts :
    (ready .bytes16 65521 0 0 0).srcValid 16 = false ∧ (ready .bytes16 65520 0 0 0).srcValid 16 = true ∧
    State.reset.keyv = false ∧ (ready .bytes16 65520 0 0 0).keyv = true := by decide +kernel

/-- EcbEnc, CbcEnc and XexEnc: ready with either padding, at the edges of DMEM; and each error's own hypothesis. -/
theorem witness_encrypting :
    Memory.wf (loaded 0 65520 16).dmem ∧ encryptingReady .noPad true (loaded 0 65520 16) ∧
    encryptingReady .noPad true (loaded 4294967295 4294967295 0) ∧
    encryptingReady .pkcs7 true (loaded 65520 65504 16) ∧ encryptingReady .pkcs7 true (loaded 0 65520 15) ∧
    (loaded 0 0 16).cbc.cbcv = true ∧ (loaded 0 0 16).xts.xtsv = true ∧
    State.reset.keyv = false ∧ (ready .bytes16 0 0 0 0).cbc.cbcv = false ∧ (ready .bytes16 0 0 0 0).xts.xtsv = false ∧
    (loaded 0 0 15).count % 16 ≠ 0 ∧
    (loaded 0 65520 16).dstValid (paddedLength .pkcs7 16) = false ∧ (loaded 65521 0 16).srcValid 16 = false := by
  unfold encryptingReady; decide +kernel

/-- EcbDec, CbcDec and XexDec: ready, at the edges of DMEM; and each error's own hypothesis. -/
theorem witness_decrypting :
    Memory.wf (loaded 0 65520 16).dmem ∧ decryptingReady true (loaded 65520 0 16) ∧
    decryptingReady true (loaded 4294967295 0 0) ∧ State.reset.keyv = false ∧
    (ready .bytes16 0 0 0 0).cbc.cbcv = false ∧ (ready .bytes16 0 0 0 0).xts.xtsv = false ∧
    (loaded 0 65532 5).dstValid 5 = false ∧ (loaded 0 65531 5).dstValid 5 = true ∧ (loaded 0 65531 5).count % 16 ≠ 0 ∧
    unpadBytes .pkcs7 (hex 16 0x0707070707070707070707070707AB01) =
      .ok (hex 15 0x0707070707070707070707070707AB) ∧
    unpadBytes .pkcs7 (zeros 16) = .error .padBadPadding ∧ unpadBytes .pkcs7 [] = .error .padBadPadding := by
  unfold decryptingReady; decide +kernel

/-- XtsEnc and XtsDec: ready with one block, a stealer of 1 and of 15 bytes, and two blocks; and the errors. -/
theorem witness_xts :
    Memory.wf (loaded 0 65520 16).dmem ∧ xtsReady (loaded 0 65520 16) ∧ xtsReady (loaded 0 65519 17) ∧
    xtsReady (loaded 0 65505 31) ∧ xtsReady (loaded 0 65504 32) ∧ (loaded 0 0 15).count < 16 ∧
    (loaded 0 65520 17).dstValid 17 = false ∧ State.reset.keyv = false ∧ (ready .bytes16 0 0 0 0).xts.xtsv = false := by
  unfold xtsReady; decide +kernel

theorem witness_DecryptingReversesEncrypting :
    (inFlight 0x28 []).Inv ∧ reverses .pkcs7 (.cbcEnc 1) (.cbcDec 1) ∧
    ∃ t u, exec (.cbcEnc 1) (inFlight 0x28 []) = .next t ∧ t.err = .ok ∧
      u = { t with
        srcl := (inFlight 0x28 []).dstl, lenl := t.outlen, dstl := 65504, cbc := (inFlight 0x28 []).cbc,
        xts := (inFlight 0x28 []).xts } ∧
      u.dstValid u.count = true :=
  ⟨inFlight_inv, .inr (.inl ⟨rfl, rfl⟩), _, _, rfl, by decide +kernel, rfl, by decide +kernel⟩

/-- The same hypotheses for each of the other pairs and both paddings. -/
theorem witness_DecryptingReversesEncrypting_pairs :
    (∀ p : Pad, reverses p (.ecbEnc p.field) (.ecbDec p.field) ∧ reverses p (.cbcEnc p.field) (.cbcDec p.field) ∧
      reverses p (.xexEnc p.field) (.xexDec p.field) ∧ reverses p .xtsEnc .xtsDec) ∧
    [Instr.ecbEnc 0, .ecbEnc 1, .cbcEnc 0, .xexEnc 0, .xexEnc 1, .xtsEnc].all (fun i =>
      after (exec i (inFlight 0x28 [])) fun t =>
        t.err == .ok && { t with lenl := t.outlen, dstl := 65504 }.dstValid t.outlen.toNat) = true := by
  refine ⟨fun p => ?_, by decide +kernel⟩
  simp [reverses]

theorem witness_CtrXorAppliesTheKeystream :
    Memory.wf (loaded 0 65520 16).dmem ∧ State.reset.keyv = false ∧ (ready .bytes16 0 0 0 0).ctr.ctrv = false ∧
    (loaded 0 65520 16).keyv = true ∧ (loaded 0 65520 16).ctr.ctrv = true ∧ (loaded 0 65521 16).dstValid 16 = false ∧
    (loaded 0 65520 16).srcValid 16 = true ∧ (loaded 0 65520 16).dstValid 16 = true ∧
    (loaded 0 0 2).count ≤ (loaded 0 0 2).ctr.kslen.toNat ∧ (loaded 0 0 2).srcValid 2 = true ∧
    ¬((loaded 0 0 3).count ≤ (loaded 0 0 3).ctr.kslen.toNat) ∧ (loaded 0 0 18).srcValid 18 = true := by decide +kernel

theorem witness_CtrStreamSplitsAnywhere : CtrContext.Inv ⟨blk 7, blk 0x0102, 2, true⟩ := by
  have h : ∀ i : Fin 14, (blk 0x0102).get i = 0 := by decide +kernel
  exact fun i hi => h ⟨i, hi⟩

theorem witness_GhashInitFoldsTheAad :
    (operands 65521 0 0 0 []).srcValid 16 = false ∧ (operands 0 0 17 65520 []).auxValid 17 = false ∧
    (operands 65520 0 16 65520 []).srcValid 16 = true ∧ (operands 65520 0 16 65520 []).auxValid 16 = true ∧
    (operands 0 0 0 4294967295 []).auxValid 0 = true := by decide +kernel

theorem witness_GhashUpdateFoldsWholeBlocks :
    (inFlight 0x28 []).ghash.Inv ∧ State.reset.ghash.ghph ≠ .active ∧ (loaded 65520 0 16).ghash.ghph = .active ∧
    (loaded 65521 0 16).srcValid 16 = false ∧ (loaded 65520 0 16).srcValid 16 = true :=
  ⟨inFlight_inv.ghash, by decide +kernel, by decide +kernel, by decide +kernel, by decide +kernel⟩

theorem witness_GhashFinalWritesTheHash :
    Memory.wf (loaded 0 65520 0).dmem ∧ State.reset.ghash.ghph ≠ .active ∧ (loaded 0 65520 0).ghash.ghph = .active ∧
    (loaded 0 65521 0).dstValid 16 = false ∧ (loaded 0 65520 0).dstValid 16 = true ∧
    (loaded 0 65520 0).ghash.blen ≠ 0 := by decide +kernel

theorem witness_KeyExpansionFollowsTheRecurrence :
    (hex 16 keyC).length = 16 ∧ (hex 24 keyC).length = 24 ∧ (hex 32 keyC).length = 32 ∧
    4 ≤ 4 ∧ 4 < 4 * (4 + 7) ∧ 59 < 4 * (8 + 7) ∧ 14 < 8 + 7 ∧ 3 < 4 := by decide

theorem witness_RowAndColumnTransformsByCell : 0 < 4 ∧ 3 < 4 := by decide

/-- Each case of R302: a length of 15, the empty string, a last byte of 0 and of 17, a wrong byte first and next to last of
the last p, and good padding of 1 and of 16. -/
theorem witness_UnpadReversesPad :
    (zeros 15).length % 16 ≠ 0 ∧ ([] : List Byte) = [] ∧
    (zeros 16).length % 16 = 0 ∧ zeros 16 ≠ [] ∧ ((zeros 16).getD 15 0).toNat = 0 ∧
    16 < ((hex 16 0x11).getD 15 0).toNat ∧
    ((hex 16 0x020303).getD 13 0).toNat ≠ 3 ∧ ((hex 16 0x030203).getD 14 0).toNat ≠ 3 ∧
    (∀ i, i < 16 → 16 - 1 ≤ i → ((hex 16 0x01).getD i 0).toNat = 1) ∧
    ∀ i, i < 16 → 16 - 16 ≤ i → ((hex 16 0x10101010101010101010101010101010).getD i 0).toNat = 16 := by decide +kernel

/-- V-PAD-1: the outcomes of unpadding. -/
theorem test_unpad1 :
    unpad1 (zeros 15) = .error .padBadData ∧ unpad1 [] = .error .padBadPadding ∧
    unpad1 (zeros 16) = .error .padBadPadding ∧ unpad1 (hex 16 0x11) = .error .padBadPadding ∧
    unpad1 (hex 16 0x020303) = .error .padBadPadding ∧ unpad1 (hex 16 0x0102) = .error .padBadPadding ∧
    unpad1 (hex 16 0xABABABABABABABABABABABABAB030303) = .ok (hex 13 0xABABABABABABABABABABABABAB) ∧
    unpad1 (hex 16 0x10101010101010101010101010101010) = .ok [] := by decide +kernel

/-- R434, R450: a power cycle in the middle of a command. -/
theorem test_power_cycle :
    after (step (inFlight 0x28 [.powerOn])) (fun t => t.statusWord == 0 && t.dmem == [] && t.epoch == 1) = true := by
  decide +kernel

end Sys2Proof.Tests
end

/-! # What every command does: its update of the key file or its context, and its completion -/

namespace Sys2Proof.Machine

/-! ## The lengths of what a command writes -/

/-- A range inside a valid range at DSTL is valid (R15). -/
theorem dstValid_of_le {s : State} {n k : Nat} (hn : s.dstValid n = true) (hk : k ≤ n) : s.dstValid k = true := by
  simp only [State.dstValid, State.valid, Bool.or_eq_true, beq_iff_eq, decide_eq_true_eq] at hn ⊢
  omega

@[simp] theorem srcBytes_length (s : State) : s.srcBytes.length = s.count := memRead_length ..

@[simp] theorem auxBytes_length (s : State) : s.auxBytes.length = s.count := memRead_length ..

theorem padBytes_length (p : Pad) (d : List Byte) : (padBytes p d).length = paddedLength p d.length := by
  cases p with
  | noPad => rfl
  | pkcs7 => simp [padBytes, paddedLength, pad1]

theorem unpadBytes_length_le {p : Pad} {d out : List Byte} (h : unpadBytes p d = .ok out) :
    out.length ≤ d.length := by
  cases p with
  | noPad => cases h; exact Nat.le_refl _
  | pkcs7 =>
    simp only [unpadBytes, unpad1] at h
    split_ifs at h
    cases h
    simp

/-- Cutting a string into blocks and joining them again gives no more bytes than it had. -/
theorem length_bytesOf_le {bs : List Block} {d : List Byte} (h : bs.length = (blocksOf d).length) :
    (bytesOf bs).length ≤ d.length := by
  rw [bytesOf_length, h, blocksOf_length]
  omega

theorem cbcEncrypt_length (enc : Block → Block) (cv : Block) (ps : List Block) :
    (cbcEncrypt enc cv ps).1.length = ps.length := by
  induction ps generalizing cv with
  | nil => rfl
  | cons p ps ih => simp [cbcEncrypt, ih]

theorem cbcDecrypt_length (dec : Block → Block) (cv : Block) (cs : List Block) :
    (cbcDecrypt dec cv cs).1.length = cs.length := by
  induction cs generalizing cv with
  | nil => rfl
  | cons c cs ih => simp [cbcDecrypt, ih]

theorem xexBlocks_length (f : Block → Block) (t : Block) (bs : List Block) :
    (xexBlocks f t bs).1.length = bs.length := by
  induction bs generalizing t with
  | nil => rfl
  | cons b bs ih => simp [xexBlocks, ih]

@[simp] theorem xtsPrefix_length (f : Block → Block) (t : Block) (d : List Byte) (n : Nat) :
    (xtsPrefix f t d n).length = 16 * n := by
  simp [xtsPrefix, List.length_flatMap, Nat.mul_comm]

/-- The output of R340 and R341 with ciphertext stealing: the blocks before the last whole one, a block, and the last
`b` bytes. -/
theorem xtsStealing_length (f : Block → Block) (t x y : Block) (d : List Byte) (hd : 16 ≤ d.length) :
    (xtsPrefix f t d (d.length / 16 - 1) ++ x.toBytes ++ y.toBytes.take (d.length % 16)).length = d.length := by
  simp only [List.length_append, xtsPrefix_length, Block.toBytes_length, List.length_take]
  omega

theorem xtsEncrypt_length (enc : Block → Block) (t : Block) (d : List Byte) (hd : 16 ≤ d.length) :
    (xtsEncrypt enc t d).1.length = d.length := by
  dsimp only [xtsEncrypt]
  split
  · simp only [xtsPrefix_length]
    omega
  · exact xtsStealing_length _ _ _ _ _ hd

theorem xtsDecrypt_length (dec : Block → Block) (t : Block) (d : List Byte) (hd : 16 ≤ d.length) :
    (xtsDecrypt dec t d).1.length = d.length := by
  dsimp only [xtsDecrypt]
  split
  · simp only [xtsPrefix_length]
    omega
  · exact xtsStealing_length _ _ _ _ _ hd

theorem ctrDrain_length (c : CtrContext) (d : List Byte) :
    (ctrDrain c d).1.length + (ctrDrain c d).2.2.length = d.length := by
  induction d generalizing c with
  | nil => rfl
  | cons x d ih =>
    unfold ctrDrain
    split
    · simp
    · have := ih { c with ksbuf := c.ksbuf.set (16 - c.kslen.toNat) 0, kslen := c.kslen - 1 }
      simp only [List.length_cons]
      omega

theorem ctrChunks_length (enc : Block → Block) (c : CtrContext) (bs : List Block) :
    (ctrChunks enc c bs).1.length = bs.length := by
  induction bs generalizing c with
  | nil => rfl
  | cons b bs ih => simp [ctrChunks, ih]

theorem ctrTail_length_le (enc : Block → Block) (c : CtrContext) (d : List Byte) :
    (ctrTail enc c d).1.length ≤ d.length := by
  unfold ctrTail
  split
  · exact Nat.zero_le _
  · simp [xorBytes]

theorem ctrStream_length_le (enc : Block → Block) (c : CtrContext) (d : List Byte) :
    (ctrStream enc c d).1.length ≤ d.length := by
  have hdrain := ctrDrain_length c d
  have htail := ctrTail_length_le enc
    (ctrChunks enc (ctrDrain c d).2.1 (blocksOf (ctrDrain c d).2.2)).2
    ((ctrDrain c d).2.2.drop (16 * ((ctrDrain c d).2.2.length / 16)))
  simp only [List.length_drop] at htail
  simp only [ctrStream, List.length_append, bytesOf_length, ctrChunks_length, blocksOf_length]
  omega

/-! ## The one inversion of `exec` -/

theorem KeySize.eq_bytes_of_ofBytes? {n : Nat} {size : KeySize} (h : KeySize.ofBytes? n = some size) :
    n = size.bytes := by
  unfold KeySize.ofBytes? at h
  split at h <;> cases h <;> rfl

/-- What a command may have done to the key file or to its own mode's context when it completes: nothing, or the
update of its rule, with those checks of the rule that the invariant rests on. -/
inductive Updates : Instr → State → State → Prop
  | keep (i : Instr) (s : State) : Updates i s s
  | keyLoad {s : State} {size : KeySize} {key : List Byte} (hkey : key.length = size.bytes) :
      Updates .keyLoad s (s.loadKey size key)
  | keyClear (s : State) :
      Updates .keyClear s { s with rk := List.replicate 15 Block.zero, keyv := false, ksz := .bytes16 }
  | cbcSetiv (s : State) (cv : Block) : Updates .cbcSetiv s { s with cbc := ⟨cv, true⟩ }
  | cbcEnc {s : State} {pad : BitVec 2} {cv : Block} (hv : s.cbc.cbcv = true) : Updates (.cbcEnc pad) s (s.setCv cv)
  | cbcDec {s : State} {pad : BitVec 2} {cv : Block} (hv : s.cbc.cbcv = true) : Updates (.cbcDec pad) s (s.setCv cv)
  | ctrSetctr (s : State) (cnt : Block) : Updates .ctrSetctr s { s with ctr := ⟨cnt, Block.zero, 0, true⟩ }
  | ctrXor {s : State} {enc : Block → Block} {d : List Byte} (hv : s.ctr.ctrv = true) :
      Updates .ctrXor s { s with ctr := (ctrStream enc s.ctr d).2 }
  | xtsSettweak (s : State) (t : Block) : Updates .xtsSettweak s { s with xts := ⟨t, true⟩ }
  | xexEnc {s : State} {pad : BitVec 2} {t : Block} (hv : s.xts.xtsv = true) : Updates (.xexEnc pad) s (s.setTwk t)
  | xexDec {s : State} {pad : BitVec 2} {t : Block} (hv : s.xts.xtsv = true) : Updates (.xexDec pad) s (s.setTwk t)
  | xtsEnc {s : State} {t : Block} (hv : s.xts.xtsv = true) : Updates .xtsEnc s (s.setTwk t)
  | xtsDec {s : State} {t : Block} (hv : s.xts.xtsv = true) : Updates .xtsDec s (s.setTwk t)
  | ghashInit (s : State) (h : Block) (a : List Byte) : Updates .ghashInit s { s with ghash := ghashStart h a }
  | ghashUpdate {s : State} {d : List Byte} (hp : s.ghash.ghph = .active) :
      Updates .ghashUpdate s { s with ghash := ghashData s.ghash d }
  | ghashFinal (s : State) : Updates .ghashFinal s { s with ghash := ghashFinish s.ghash }

/-- How a command ends, from the state `u` with its update made: it completes with a code, or it writes a string to a
valid range at DSTL and completes without an error (R35, R48). -/
inductive Finishes (u : State) : State → Prop
  | complete (code : ErrCode) : Finishes u (u.complete code)
  | output {v : List Byte} (hv : u.dstValid v.length = true) : Finishes u ((u.writeOut v).complete .ok)

/-- A command that raised an error made no update. -/
theorem updates_finishes_of_failed {s t : State} (i : Instr) (h : failed s t) :
    ∃ u, Updates i s u ∧ Finishes u t := by
  obtain ⟨code, -, rfl⟩ := h
  exact ⟨s, .keep i s, .complete code⟩

/-- A command that ends by writing no more than a length its DSTL range was checked for. -/
theorem Finishes.output_le {u : State} {v : List Byte} {n : Nat} (hn : u.dstValid n = true) (hv : v.length ≤ n) :
    Finishes u ((u.writeOut v).complete .ok) := .output (dstValid_of_le hn hv)

/-- The end of a decrypting block mode that has `bs` of the ciphertext's blocks (R305). -/
theorem finishes_decOutput {u t : State} {p : Pad} {bs : List Block} {c : List Byte}
    (h : (∃ d, unpadBytes p (bytesOf bs) = .ok d ∧ t = (u.writeOut d).complete .ok) ∨
      (∃ e, unpadBytes p (bytesOf bs) = .error e ∧ t = u.complete .padBadPadding))
    (hn : u.dstValid c.length = true) (hbs : bs.length = (blocksOf c).length) : Finishes u t := by
  rcases h with ⟨d, hd, rfl⟩ | ⟨e, -, rfl⟩
  · exact .output_le hn ((unpadBytes_length_le hd).trans (length_bytesOf_le hbs))
  · exact .complete _

/-- Every command that answers a next state makes its mode's update, or none, and then finishes. -/
theorem exec_next {i : Instr} {s t : State} (h : exec i s = .next t) : ∃ u, Updates i s u ∧ Finishes u t := by
  cases i with
  | nop => exact execNop_next h ▸ ⟨s, .keep .., .complete _⟩
  | keyLoad =>
    obtain h | ⟨size, hsize, -, rfl⟩ := execKeyLoad_next h
    · exact updates_finishes_of_failed _ h
    · exact ⟨_, .keyLoad ((srcBytes_length s).trans (KeySize.eq_bytes_of_ofBytes? hsize)), .complete _⟩
  | keyClear => exact execKeyClear_next h ▸ ⟨_, .keyClear s, .complete _⟩
  | ksRead idx =>
    obtain h | ⟨-, -, hd, rfl⟩ := execKsRead_next h
    · exact updates_finishes_of_failed _ h
    · exact ⟨s, .keep .., .output hd⟩
  | stateRead sel =>
    obtain h | ⟨v, -, hd, rfl⟩ := execStateRead_next h
    · exact updates_finishes_of_failed _ h
    · exact ⟨s, .keep .., .output hd⟩
  | gf8Mul =>
    obtain h | ⟨-, -, hd, rfl⟩ := execGf8Mul_next h
    · exact updates_finishes_of_failed _ h
    · exact ⟨s, .keep .., .output_le hd (by simp)⟩
  | sboxFwd =>
    obtain h | ⟨-, hd, rfl⟩ := execSboxFwd_next h
    · exact updates_finishes_of_failed _ h
    · exact ⟨s, .keep .., .output_le hd (by simp)⟩
  | sboxInv =>
    obtain h | ⟨-, hd, rfl⟩ := execSboxInv_next h
    · exact updates_finishes_of_failed _ h
    · exact ⟨s, .keep .., .output_le hd (by simp)⟩
  | gf128Mul =>
    obtain h | ⟨-, -, hd, rfl⟩ := execGf128Mul_next h
    · exact updates_finishes_of_failed _ h
    · exact ⟨s, .keep .., .output hd⟩
  | blkEnc =>
    obtain h | ⟨-, -, -, hd, rfl⟩ := execBlkEnc_next h
    · exact updates_finishes_of_failed _ h
    · exact ⟨s, .keep .., .output hd⟩
  | blkDec =>
    obtain h | ⟨-, -, -, hd, rfl⟩ := execBlkDec_next h
    · exact updates_finishes_of_failed _ h
    · exact ⟨s, .keep .., .output hd⟩
  | ecbEnc pad =>
    obtain h | ⟨p, -, ⟨-, -, -, -, hd⟩, rfl⟩ := execEcbEnc_next h
    · exact updates_finishes_of_failed _ h
    · rw [← srcBytes_length, ← padBytes_length] at hd
      exact ⟨s, .keep .., .output_le hd (length_bytesOf_le (by simp))⟩
  | ecbDec pad =>
    obtain h | ⟨p, d, -, ⟨-, -, -, hd, -⟩, hu, rfl⟩ := execEcbDec_next h
    · exact updates_finishes_of_failed _ h
    · rw [← srcBytes_length] at hd
      exact ⟨s, .keep .., finishes_decOutput (.inl ⟨d, hu, rfl⟩) hd (by simp)⟩
  | cbcSetiv =>
    obtain h | ⟨-, rfl⟩ := execCbcSetiv_next h
    · exact updates_finishes_of_failed _ h
    · exact ⟨_, .cbcSetiv .., .complete _⟩
  | cbcEnc pad =>
    obtain h | ⟨p, r, -, ⟨-, hv, -, -, hd⟩, rfl, rfl⟩ := execCbcEnc_next h
    · exact updates_finishes_of_failed _ h
    · rw [← srcBytes_length, ← padBytes_length] at hd
      exact ⟨_, .cbcEnc hv, .output_le hd (length_bytesOf_le (cbcEncrypt_length ..))⟩
  | cbcDec pad =>
    obtain h | ⟨p, r, -, ⟨-, hv, -, hd, -⟩, rfl, hout⟩ := execCbcDec_next h
    · exact updates_finishes_of_failed _ h
    · rw [← srcBytes_length] at hd
      exact ⟨_, .cbcDec hv, finishes_decOutput hout hd (cbcDecrypt_length ..)⟩
  | ctrSetctr =>
    obtain h | ⟨-, rfl⟩ := execCtrSetctr_next h
    · exact updates_finishes_of_failed _ h
    · exact ⟨_, .ctrSetctr .., .complete _⟩
  | ctrXor =>
    obtain h | ⟨r, -, hv, -, hd, rfl, rfl⟩ := execCtrXor_next h
    · exact updates_finishes_of_failed _ h
    · rw [← srcBytes_length] at hd
      exact ⟨_, .ctrXor hv, .output_le hd (ctrStream_length_le ..)⟩
  | xtsSettweak =>
    obtain h | ⟨-, -, rfl⟩ := execXtsSettweak_next h
    · exact updates_finishes_of_failed _ h
    · exact ⟨_, .xtsSettweak .., .complete _⟩
  | xexEnc pad =>
    obtain h | ⟨p, r, -, ⟨-, hv, -, -, hd⟩, rfl, rfl⟩ := execXexEnc_next h
    · exact updates_finishes_of_failed _ h
    · rw [← srcBytes_length, ← padBytes_length] at hd
      exact ⟨_, .xexEnc hv, .output_le hd (length_bytesOf_le (xexBlocks_length ..))⟩
  | xexDec pad =>
    obtain h | ⟨p, r, -, ⟨-, hv, -, hd, -⟩, rfl, hout⟩ := execXexDec_next h
    · exact updates_finishes_of_failed _ h
    · rw [← srcBytes_length] at hd
      exact ⟨_, .xexDec hv, finishes_decOutput hout hd (xexBlocks_length ..)⟩
  | xtsEnc =>
    obtain h | ⟨r, ⟨-, hv, hn, -, hd⟩, rfl, rfl⟩ := execXtsEnc_next h
    · exact updates_finishes_of_failed _ h
    · rw [← srcBytes_length] at hd hn
      exact ⟨_, .xtsEnc hv, .output_le hd (xtsEncrypt_length _ _ _ hn).le⟩
  | xtsDec =>
    obtain h | ⟨r, ⟨-, hv, hn, -, hd⟩, rfl, rfl⟩ := execXtsDec_next h
    · exact updates_finishes_of_failed _ h
    · rw [← srcBytes_length] at hd hn
      exact ⟨_, .xtsDec hv, .output_le hd (xtsDecrypt_length _ _ _ hn).le⟩
  | ghashInit =>
    obtain h | ⟨-, -, rfl⟩ := execGhashInit_next h
    · exact updates_finishes_of_failed _ h
    · exact ⟨_, .ghashInit .., .complete _⟩
  | ghashUpdate =>
    obtain h | ⟨hp, -, rfl⟩ := execGhashUpdate_next h
    · exact updates_finishes_of_failed _ h
    · exact ⟨_, .ghashUpdate hp, .complete _⟩
  | ghashFinal =>
    obtain h | ⟨g, -, hd, rfl, rfl⟩ := execGhashFinal_next h
    · exact updates_finishes_of_failed _ h
    · exact ⟨_, .ghashFinal s, .output hd⟩

/-! ## What a command leaves unchanged -/

theorem Updates.sameHostSide {i : Instr} {s u : State} (h : Updates i s u) : sameHostSide s u := by
  cases h <;> simp [Machine.sameHostSide]

theorem Finishes.sameHostSide {u t : State} (h : Finishes u t) : Machine.sameHostSide u t := by
  cases h <;> simp [Machine.sameHostSide]

theorem sameHostSide.trans {s u t : State} (h : sameHostSide s u) (h' : sameHostSide u t) : sameHostSide s t := by
  simp only [sameHostSide] at h h' ⊢
  simp only [h', h, and_self]

theorem Finishes.sameKey {u t : State} (h : Finishes u t) : Machine.sameKey u t := by
  cases h <;> exact ⟨rfl, rfl, rfl⟩

theorem Finishes.sameContexts {u t : State} (h : Finishes u t) : Machine.sameContexts u t := by
  cases h <;> exact ⟨rfl, rfl, rfl, rfl⟩

/-- Settles O19: the update writes key file and contexts only, the completion DMEM and the status only. -/
theorem commandsKeepTheHostSide : Obligations.CommandsKeepTheHostSide := by
  intro i s t h
  obtain ⟨u, hu, ht⟩ := exec_next h
  exact hu.sameHostSide.trans ht.sameHostSide

/-- Settles O22: of the updates, only those of KEY_LOAD and KEY_CLEAR write the key file. -/
theorem onlyKeyCommandsWriteRoundKeys : Obligations.OnlyKeyCommandsWriteRoundKeys := by
  intro i s t h hload hclear
  obtain ⟨u, hu, ht⟩ := exec_next h
  have hsu : sameKey s u := by
    cases hu with
    | keyLoad => exact absurd rfl hload
    | keyClear => exact absurd rfl hclear
    | _ => exact ⟨rfl, rfl, rfl⟩
  obtain ⟨hrk, hkeyv, hksz⟩ := ht.sameKey
  obtain ⟨hrk', hkeyv', hksz'⟩ := hsu
  exact ⟨hrk.trans hrk', hkeyv.trans hkeyv', hksz.trans hksz'⟩

theorem Updates.cbc_eq {i : Instr} {s u : State} (h : Updates i s u) (hset : i ≠ .cbcSetiv)
    (hio : ∀ p, i ≠ .cbcEnc p ∧ i ≠ .cbcDec p) : u.cbc = s.cbc := by
  cases h with
  | cbcSetiv => exact absurd rfl hset
  | cbcEnc => exact absurd rfl (hio _).1
  | cbcDec => exact absurd rfl (hio _).2
  | _ => rfl

theorem Updates.ctr_eq {i : Instr} {s u : State} (h : Updates i s u) (hset : i ≠ .ctrSetctr) (hxor : i ≠ .ctrXor) :
    u.ctr = s.ctr := by
  cases h with
  | ctrSetctr => exact absurd rfl hset
  | ctrXor => exact absurd rfl hxor
  | _ => rfl

theorem Updates.xts_eq {i : Instr} {s u : State} (h : Updates i s u) (hset : i ≠ .xtsSettweak) (henc : i ≠ .xtsEnc)
    (hdec : i ≠ .xtsDec) (hxex : ∀ p, i ≠ .xexEnc p ∧ i ≠ .xexDec p) : u.xts = s.xts := by
  cases h with
  | xtsSettweak => exact absurd rfl hset
  | xtsEnc => exact absurd rfl henc
  | xtsDec => exact absurd rfl hdec
  | xexEnc => exact absurd rfl (hxex _).1
  | xexDec => exact absurd rfl (hxex _).2
  | _ => rfl

theorem Updates.ghash_eq {i : Instr} {s u : State} (h : Updates i s u) (hinit : i ≠ .ghashInit)
    (hupd : i ≠ .ghashUpdate) (hfin : i ≠ .ghashFinal) : u.ghash = s.ghash := by
  cases h with
  | ghashInit => exact absurd rfl hinit
  | ghashUpdate => exact absurd rfl hupd
  | ghashFinal => exact absurd rfl hfin
  | _ => rfl

/-- Settles O23: the completion keeps all contexts, and each update is of its own mode's context. -/
theorem commandsKeepOtherContexts : Obligations.CommandsKeepOtherContexts := by
  intro i s t h
  obtain ⟨u, hu, ht⟩ := exec_next h
  obtain ⟨hcbc, hctr, hxts, hghash⟩ := ht.sameContexts
  refine ⟨fun hset hio => ?_, fun hset hxor => ?_, fun hset henc hdec hxex => ?_, fun hinit hupd hfin => ?_⟩
  · exact hcbc.trans (hu.cbc_eq hset hio)
  · exact hctr.trans (hu.ctr_eq hset hxor)
  · exact hxts.trans (hu.xts_eq hset henc hdec hxex)
  · exact hghash.trans (hu.ghash_eq hinit hupd hfin)

end Sys2Proof.Machine

/-! # Every step keeps the invariant -/

namespace Sys2Proof.Machine

/-! ## The bytes of a block -/

theorem get_ofBytes (l : List Byte) {i : Nat} (hi : i < 16) : (Block.ofBytes l).get i = l.getD i 0 := by
  have hbytes : (Block.ofBytes l).toBytes = (List.range 16).map (l.getD · 0) := rfl
  simp [Block.get, hbytes, hi]

theorem get_set (b : Block) (k : Nat) (x : Byte) {i : Nat} (hi : i < 16) :
    (b.set k x).get i = if i = k then x else b.get i := by
  rw [Block.set, get_ofBytes _ hi]
  by_cases hik : i = k
  · subst hik
    simp [hi]
  · simp [Block.get, hik, Ne.symm hik]

theorem get_zero (i : Nat) : Block.zero.get i = 0 := by
  have hbytes : Block.zero.toBytes = List.replicate 16 0 := rfl
  rw [Block.get, hbytes, List.getD_eq_getElem?_getD, List.getElem?_getD_replicate_default_eq]

/-! ## The CTR context -/

/-- A byte of leftover keystream used is a byte of KSBUF zeroed (R364). -/
theorem ctrInv_useByte {c : CtrContext} (h : c.Inv) (hk : c.kslen ≠ 0) :
    CtrContext.Inv { c with ksbuf := c.ksbuf.set (16 - c.kslen.toNat) 0, kslen := c.kslen - 1 } := by
  intro i hi
  have hlen : (c.kslen - 1).toNat = c.kslen.toNat - 1 := by bv_omega
  have hpos : 0 < c.kslen.toNat := by bv_omega
  simp only [hlen] at hi
  rw [get_set _ _ _ (by omega)]
  split
  · rfl
  · exact h i (by omega)

theorem ctrDrain_inv {c : CtrContext} (d : List Byte) (h : c.Inv) :
    (ctrDrain c d).2.1.Inv ∧ (ctrDrain c d).2.1.ctrv = c.ctrv := by
  induction d generalizing c with
  | nil => exact ⟨h, rfl⟩
  | cons x d ih =>
    unfold ctrDrain
    split
    · exact ⟨h, rfl⟩
    · next hk => exact ih (ctrInv_useByte h hk)

theorem ctrChunks_inv (enc : Block → Block) {c : CtrContext} (bs : List Block) (h : c.Inv) :
    (ctrChunks enc c bs).2.Inv ∧ (ctrChunks enc c bs).2.ctrv = c.ctrv := by
  induction bs generalizing c with
  | nil => exact ⟨h, rfl⟩
  | cons b bs ih => exact ih (c := { c with cnt := incCounter c.cnt }) h

/-- The bytes of the last block's keystream that a final chunk used are zeroed in KSBUF (R362, R364). -/
theorem ctrTail_inv (enc : Block → Block) {c : CtrContext} (d : List Byte) (h : c.Inv) :
    (ctrTail enc c d).2.Inv ∧ (ctrTail enc c d).2.ctrv = c.ctrv := by
  unfold ctrTail
  split
  · exact ⟨h, rfl⟩
  · next hd =>
    refine ⟨fun i hi => ?_, rfl⟩
    have hlt : i < d.length ∧ i < 16 := by
      simp only [BitVec.toNat_ofNat] at hi
      omega
    rw [get_ofBytes _ hlt.2, List.getD_append _ _ _ _ (by simpa using hlt.1)]
    simp [zeros]

theorem ctrStream_inv (enc : Block → Block) {c : CtrContext} (d : List Byte) (h : c.Inv) :
    (ctrStream enc c d).2.Inv ∧ (ctrStream enc c d).2.ctrv = c.ctrv := by
  obtain ⟨hdrain, hdrainv⟩ := ctrDrain_inv d h
  obtain ⟨hchunks, hchunksv⟩ := ctrChunks_inv enc (blocksOf (ctrDrain c d).2.2) hdrain
  obtain ⟨htail, htailv⟩ := ctrTail_inv enc
    ((ctrDrain c d).2.2.drop (16 * ((ctrDrain c d).2.2.length / 16))) hchunks
  exact ⟨htail, htailv.trans (hchunksv.trans hdrainv)⟩

/-! ## The GHASH context -/

theorem ghashInv_empty {g : GhashContext} (h : g.buf = Block.zero) : g.Inv := fun i _ _ => h ▸ get_zero i

/-- A data byte goes to the first free byte of GH_BUF, which is emptied when it is full (R384). -/
theorem ghashByte_inv {g : GhashContext} (x : Byte) (h : g.Inv) :
    (ghashByte g x).Inv ∧ (ghashByte g x).ghph = g.ghph := by
  dsimp only [ghashByte]
  split
  · exact ⟨ghashInv_empty rfl, rfl⟩
  · next hfull =>
    refine ⟨fun i hlo hi => ?_, rfl⟩
    have hlen : (g.blen + 1).toNat = g.blen.toNat + 1 := by bv_omega
    simp only [hlen] at hlo
    rw [get_set _ _ _ hi, if_neg (by omega)]
    exact h i (by omega) hi

theorem foldl_ghashByte_inv {g : GhashContext} (d : List Byte) (h : g.Inv) :
    (d.foldl ghashByte g).Inv ∧ (d.foldl ghashByte g).ghph = g.ghph := by
  induction d generalizing g with
  | nil => exact ⟨h, rfl⟩
  | cons x d ih =>
    obtain ⟨hx, hphx⟩ := ghashByte_inv x h
    obtain ⟨hd, hphd⟩ := ih hx
    exact ⟨hd, hphd.trans hphx⟩

theorem ghashData_inv {g : GhashContext} (d : List Byte) (h : g.Inv) :
    (ghashData g d).Inv ∧ (ghashData g d).ghph = g.ghph := foldl_ghashByte_inv d h

theorem ghashFinish_inv {g : GhashContext} (h : g.Inv) : (ghashFinish g).Inv := by
  have hflush : (ghashFlush g).Inv := by
    unfold ghashFlush
    split
    · exact ghashInv_empty rfl
    · exact h
  exact hflush

/-! ## DMEM -/

theorem dmemInv_memWrite {s : State} {a : Nat} {v : List Byte} (h : s.DmemInv)
    (hv : v.length = 0 ∨ a + v.length ≤ s.memSize) : (s.memWrite a v).DmemInv := by
  obtain ⟨hwf, hin⟩ := h
  refine ⟨Memory.wf_setBytes a v hwf, fun c hc => ?_⟩
  rcases Memory.mem_setBytes hc with hc | ⟨_, hc⟩
  · exact hin c hc
  · simp only [memWrite_memSize]
    omega

theorem dmemInv_writeOut {s : State} {v : List Byte} (h : s.DmemInv) (hv : s.dstValid v.length = true) :
    (s.writeOut v).DmemInv := by
  refine dmemInv_memWrite (a := s.dstAddr) h ?_
  simpa [State.dstValid, State.valid] using hv

/-! ## The commands -/

/-- Every update of a command keeps the invariant: the fields of the flight are not its to write. -/
theorem Updates.inv {i : Instr} {s u : State} (hu : Updates i s u) (h : s.Inv) : u.Inv := by
  obtain ⟨hcbc, hctr, hxts, hghash⟩ := h.unloaded
  cases hu with
  | keep => exact h
  | keyLoad hkey => exact { h with key := ⟨fun _ => ⟨_, hkey, rfl⟩, nofun⟩ }
  | keyClear => exact { h with key := ⟨nofun, fun _ => ⟨rfl, rfl⟩⟩ }
  | cbcSetiv => exact { h with unloaded := ⟨nofun, hctr, hxts, hghash⟩ }
  | cbcEnc hv | cbcDec hv => exact { h with unloaded := ⟨by simp [hv], hctr, hxts, hghash⟩ }
  | ctrSetctr => exact { h with unloaded := ⟨hcbc, nofun, hxts, hghash⟩, ctr := fun i _ => get_zero i }
  | @ctrXor _ enc d hv =>
    obtain ⟨hinv, hctrv⟩ := ctrStream_inv enc d h.ctr
    exact { h with unloaded := ⟨hcbc, by simp [hctrv, hv], hxts, hghash⟩, ctr := hinv }
  | xtsSettweak => exact { h with unloaded := ⟨hcbc, hctr, nofun, hghash⟩ }
  | xexEnc hv | xexDec hv | xtsEnc hv | xtsDec hv =>
    exact { h with unloaded := ⟨hcbc, hctr, by simp [hv], hghash⟩ }
  | ghashInit => exact { h with unloaded := ⟨hcbc, hctr, hxts, nofun⟩, ghash := ghashInv_empty rfl }
  | @ghashUpdate _ d hp =>
    obtain ⟨hinv, hghph⟩ := ghashData_inv d h.ghash
    exact { h with unloaded := ⟨hcbc, hctr, hxts, by simp [hghph, hp]⟩, ghash := hinv }
  | ghashFinal => exact { h with unloaded := ⟨hcbc, hctr, hxts, nofun⟩, ghash := ghashFinish_inv h.ghash }

/-- A completion keeps the invariant: no command is in flight after it, and an output lies inside DMEM. -/
theorem Finishes.inv {u t : State} (ht : Finishes u t) (h : u.Inv) : t.Inv := by
  cases ht with
  | complete => exact { h with flight := nofun }
  | output hv => exact { h with flight := nofun, dmem := dmemInv_writeOut h.dmem hv }

theorem exec_inv {i : Instr} {s t : State} (h : s.Inv) (ht : exec i s = .next t) : t.Inv := by
  obtain ⟨u, hu, hf⟩ := exec_next ht
  exact hf.inv (hu.inv h)

theorem coreTurn_inv {s t : State} (h : s.Inv) (ht : s.coreTurn = .next t) : t.Inv := by
  rcases coreTurn_next ht with ⟨-, rfl⟩ | ⟨-, -, rfl⟩ | ⟨-, i, -, hi⟩
  · exact h
  · exact (Finishes.complete _).inv h
  · exact exec_inv h hi

/-! ## The host's side -/

theorem resetOf_inv {m e : Nat} (hm : Config.memSizeMin ≤ m ∧ m ≤ Config.memSizeMax) : (State.resetOf m e).Inv where
  memSizeLegal := hm
  dmem := ⟨.nil, nofun⟩
  key := ⟨nofun, fun _ => ⟨rfl, rfl⟩⟩
  flight := nofun
  unloaded := ⟨fun _ => rfl, fun _ => ⟨rfl, rfl, rfl⟩, fun _ => rfl, fun _ => rfl⟩
  ctr := fun i _ => get_zero i
  ghash := ghashInv_empty rfl

theorem softReset_inv {s : State} (h : s.Inv) : s.softReset.Inv :=
  { resetOf_inv (e := s.epoch) h.memSizeLegal with dmem := h.dmem }

theorem powerCycle_inv {s : State} (h : s.Inv) : s.powerCycle.Inv :=
  { resetOf_inv (e := s.epoch + 1) h.memSizeLegal with }

theorem issue_inv {s : State} (h : s.Inv) (w : Word) : (s.issue w).Inv :=
  { h with flight := fun _ => ⟨rfl, rfl, rfl, rfl⟩ }

theorem writeCtrl_inv {s : State} (h : s.Inv) (v : Word) : (s.writeCtrl v).Inv := by
  unfold State.writeCtrl
  split
  · exact softReset_inv h
  · exact { h with }

theorem writeStatus_inv {s : State} (h : s.Inv) (v : Word) : (s.writeStatus v).Inv := by
  refine { h with flight := fun hb => ?_ }
  obtain ⟨hdone, hrest⟩ := h.flight hb
  exact ⟨by simp [State.writeStatus, hdone], hrest⟩

theorem writeCmd_inv {s : State} (h : s.Inv) (v : Word) : (s.writeCmd v).Inv := by
  unfold State.writeCmd
  split
  · exact { h with }
  · exact issue_inv h v

theorem writeRegister_inv {s : State} (h : s.Inv) (o : Nat) (v : Word) : (s.writeRegister o v).Inv := by
  unfold State.writeRegister
  split
  case h_1 => exact writeCtrl_inv h v
  case h_2 => exact writeStatus_inv h v
  case h_3 => exact writeCmd_inv h v
  all_goals exact { h with }

theorem hostReadDmem_inv {s : State} (h : s.Inv) (a n : Nat) : (s.hostReadDmem a n).Inv := by
  unfold State.hostReadDmem
  split <;> exact { h with }

theorem hostWriteDmem_inv {s : State} (h : s.Inv) {a n : Nat} (v : Word) (ha : s.dmemAccessOk a n = true) :
    (s.hostWriteDmem a n v).Inv := by
  unfold State.hostWriteDmem
  split
  · exact { h with }
  · have hin : a + (leBytes n v).length ≤ s.memSize := by
      simp only [State.dmemAccessOk, Bool.and_eq_true, decide_eq_true_eq] at ha
      simpa [leBytes] using ha.2
    exact { h with dmem := dmemInv_memWrite h.dmem (.inr hin) }

/-- Settles O17: the core's turn keeps the invariant by the updates and the completion of the commands, and so does
each kind of host access, from the state with the event taken off the host's program. -/
theorem stepKeepsTheInvariant : Obligations.StepKeepsTheInvariant := by
  intro s t h ht
  rcases step_next ht with ⟨-, ht⟩ | ⟨e, rest, -, hcases⟩
  · exact coreTurn_inv h ht
  · have hs : State.Inv { s with host := rest } := { h with }
    rcases hcases with ⟨-, ht⟩ | ⟨-, rfl⟩ | ⟨o, n, v, -, -, -, rfl⟩ | ⟨o, n, -, -, rfl⟩ | ⟨a, n, v, -, ha, -, rfl⟩ |
      ⟨a, n, -, -, -, rfl⟩
    · exact coreTurn_inv hs ht
    · exact powerCycle_inv hs
    · exact writeRegister_inv hs o v
    · exact { h with }
    · exact hostWriteDmem_inv hs v ha
    · exact hostReadDmem_inv hs a n

end Sys2Proof.Machine

/-! # Commands complete, and read the latches only -/

namespace Sys2Proof.Machine

/-! ## Completion -/

/-- The result is a next state with BUSY = 0 and DONE = 1. -/
def Completes (r : Result) : Prop := ∃ t, r = .next t ∧ t.busy = false ∧ t.done = true

theorem Completes.raiseError (code : ErrCode) (s : State) : Completes (raiseError code s) := ⟨_, rfl, rfl, rfl⟩

theorem Completes.succeed (s : State) : Completes (succeed s) := ⟨_, rfl, rfl, rfl⟩

theorem Completes.check {ok : Bool} {code : ErrCode} {s : State} {k : Result} (h : Completes k) :
    Completes (check ok code s k) := by
  cases ok with
  | true => exact h
  | false => exact .raiseError code s

theorem Completes.withPad {pad : BitVec 2} {s : State} {k : Pad → Result} (h : ∀ p, Completes (k p)) :
    Completes (withPad pad s k) := by
  unfold Machine.withPad
  split
  · exact h _
  · exact .raiseError ..

theorem Completes.encInput {p : Pad} {s : State} {k : List Byte → Result} (h : ∀ d, Completes (k d)) :
    Completes (encInput p s k) := .check (.check (h _))

theorem Completes.decInput {s : State} {k : List Byte → Result} (h : ∀ d, Completes (k d)) :
    Completes (decInput s k) := .check (.check (h _))

theorem Completes.decOutput (p : Pad) (s : State) (out : List Byte) : Completes (decOutput p s out) := by
  unfold Machine.decOutput
  split
  · exact .succeed _
  · exact .raiseError ..

theorem execKeyLoad_completes (s : State) : Completes (execKeyLoad s) := by
  unfold execKeyLoad
  split
  · exact .raiseError ..
  · exact .check (.succeed _)

theorem execStateRead_completes (sel : BitVec 4) (s : State) : Completes (execStateRead sel s) := by
  unfold execStateRead
  split
  · exact .raiseError ..
  · exact .check (.succeed _)

/-- Settles O18: a command is checks before an error or a completion, along each of its paths. -/
theorem everyCommandCompletes : Obligations.EveryCommandCompletes := by
  intro i s
  change Completes (exec i s)
  cases i with
  | nop | keyClear => exact .succeed _
  | keyLoad => exact execKeyLoad_completes s
  | stateRead sel => exact execStateRead_completes sel s
  | gf8Mul | sboxFwd | sboxInv | gf128Mul | cbcSetiv | ctrSetctr | ghashInit => exact .check (.succeed _)
  | xtsSettweak | ghashUpdate | ghashFinal => exact .check (.check (.succeed _))
  | ksRead | blkEnc | blkDec | ctrXor => exact .check (.check (.check (.succeed _)))
  | xtsEnc | xtsDec => exact .check (.check (.check (.check (.succeed _))))
  | ecbEnc => exact .withPad fun _ => .check (.encInput fun _ => .succeed _)
  | ecbDec => exact .withPad fun _ => .check (.decInput fun _ => .decOutput ..)
  | cbcEnc | xexEnc => exact .withPad fun _ => .check (.check (.encInput fun _ => .succeed _))
  | cbcDec | xexDec => exact .withPad fun _ => .check (.check (.decInput fun _ => .decOutput ..))

/-! ## The live registers -/

/-- Values of the registers and flags a command has no use for: the live operand registers, CMD, IE and OVR. -/
structure LiveRegs where
  src : Word
  dst : Word
  len : Word
  aux : Word
  cmd : Word
  ie : Bool
  ovr : Bool

/-- The state with other values in the live registers. -/
def State.withLive (l : LiveRegs) (s : State) : State :=
  { s with src := l.src, dst := l.dst, len := l.len, aux := l.aux, cmd := l.cmd, ie := l.ie, ovr := l.ovr }

section

variable (l : LiveRegs)

/-- The result `r'` is the result `r` with other values in the live registers. -/
def AgreesLive (r' r : Result) : Prop := r' = mapNext (State.withLive l) r

variable {l}

theorem AgreesLive.raiseError (code : ErrCode) (s : State) :
    AgreesLive l (raiseError code (s.withLive l)) (raiseError code s) := rfl

theorem AgreesLive.succeed {u' u : State} (h : u' = u.withLive l) : AgreesLive l (succeed u') (succeed u) := h ▸ rfl

theorem AgreesLive.output {u' u : State} {v' v : List Byte} (hu : u' = u.withLive l) (hv : v' = v) :
    AgreesLive l (Machine.succeed (u'.writeOut v')) (Machine.succeed (u.writeOut v)) := by
  subst hu hv
  rfl

theorem AgreesLive.check {ok : Bool} {code : ErrCode} {s : State} {k' k : Result} (h : AgreesLive l k' k) :
    AgreesLive l (check ok code (s.withLive l) k') (check ok code s k) := by
  cases ok with
  | true => exact h
  | false => exact .raiseError code s

theorem AgreesLive.withPad {pad : BitVec 2} {s : State} {k' k : Pad → Result} (h : ∀ p, AgreesLive l (k' p) (k p)) :
    AgreesLive l (withPad pad (s.withLive l) k') (withPad pad s k) := by
  unfold Machine.withPad
  split
  · exact h _
  · exact .raiseError ..

theorem AgreesLive.encInput {p : Pad} {s : State} {k' k : List Byte → Result} (h : ∀ d, AgreesLive l (k' d) (k d)) :
    AgreesLive l (encInput p (s.withLive l) k') (encInput p s k) := .check (.check (h _))

theorem AgreesLive.decInput {s : State} {k' k : List Byte → Result} (h : ∀ d, AgreesLive l (k' d) (k d)) :
    AgreesLive l (decInput (s.withLive l) k') (decInput s k) := .check (.check (h _))

theorem AgreesLive.decOutput {p : Pad} {u' u : State} {out' out : List Byte} (hu : u' = u.withLive l)
    (hout : out' = out) : AgreesLive l (decOutput p u' out') (decOutput p u out) := by
  subst hu hout
  unfold Machine.decOutput
  split
  · exact .output rfl rfl
  · exact .raiseError ..

theorem execKeyLoad_agreesLive (s : State) : AgreesLive l (execKeyLoad (s.withLive l)) (execKeyLoad s) := by
  have hcount : (s.withLive l).count = s.count := rfl
  unfold execKeyLoad
  rw [hcount]
  split
  · exact .raiseError ..
  · exact .check (.succeed rfl)

theorem execStateRead_agreesLive (sel : BitVec 4) (s : State) :
    AgreesLive l (execStateRead sel (s.withLive l)) (execStateRead sel s) := by
  have hreg : (s.withLive l).contextRegister sel = s.contextRegister sel := rfl
  unfold execStateRead
  rw [hreg]
  split
  · exact .raiseError ..
  · exact .check (.output rfl rfl)

/-- Every check and every value of a command is of the latches and the context, and every update keeps the live
registers. -/
theorem exec_agreesLive (i : Instr) (s : State) : AgreesLive l (exec i (s.withLive l)) (exec i s) := by
  cases i with
  | nop | keyClear => exact .succeed rfl
  | keyLoad => exact execKeyLoad_agreesLive s
  | stateRead sel => exact execStateRead_agreesLive sel s
  | gf8Mul | sboxFwd | sboxInv | gf128Mul => exact .check (.output rfl rfl)
  | cbcSetiv | ctrSetctr | ghashInit => exact .check (.succeed rfl)
  | xtsSettweak | ghashUpdate => exact .check (.check (.succeed rfl))
  | ghashFinal => exact .check (.check (.output rfl rfl))
  | ksRead | blkEnc | blkDec | ctrXor => exact .check (.check (.check (.output rfl rfl)))
  | xtsEnc | xtsDec => exact .check (.check (.check (.check (.output rfl rfl))))
  | ecbEnc => exact .withPad fun _ => .check (.encInput fun _ => .output rfl rfl)
  | ecbDec => exact .withPad fun _ => .check (.decInput fun _ => .decOutput rfl rfl)
  | cbcEnc | xexEnc => exact .withPad fun _ => .check (.check (.encInput fun _ => .output rfl rfl))
  | cbcDec | xexDec => exact .withPad fun _ => .check (.check (.decInput fun _ => .decOutput rfl rfl))

end

/-- Settles O20, for the values of the statement as one record of live registers. -/
theorem commandsReadOnlyTheLatches : Obligations.CommandsReadOnlyTheLatches := fun i s a b c d w ie ovr =>
  exec_agreesLive (l := ⟨a, b, c, d, w, ie, ovr⟩) i s

end Sys2Proof.Machine

/-! # The register map and the step around a command -/

namespace Sys2Proof.Machine

/-! ## The step -/

theorem coreTurn_idle {s : State} (h : s.busy = false) : s.coreTurn = .next s := by simp [State.coreTurn, h]

theorem coreTurn_busy {s : State} {i : Instr} (h : s.busy = true) (hi : decode s.cmdl = .ok i) :
    s.coreTurn = exec i s := by simp [State.coreTurn, State.coreStep, h, hi]

theorem step_wait {s : State} {rest : List HostEvent} (h : s.host = .wait :: rest) :
    step s = State.coreTurn { s with host := rest } := step_cons h

/-- Settles O5: the core's turn, taken at a wait or when the host has no event left. -/
theorem stepRunsTheDecodedCommand : Obligations.StepRunsTheDecodedCommand := by
  refine fun s => ⟨fun i hbusy hi => ⟨fun hhost => ?_, fun rest hhost => ?_⟩,
    fun hidle => ⟨fun hhost => ?_, fun rest hhost => ?_⟩⟩
  · rw [step_nil hhost, coreTurn_busy hbusy hi]
  · rw [step_wait hhost]
    exact coreTurn_busy hbusy hi
  · rw [step_nil hhost, coreTurn_idle hidle]
  · rw [step_wait hhost]
    exact coreTurn_idle hidle

theorem registerAccessOk_word {o : Nat} (ho : o % 4 = 0) (hlt : o < 256) : registerAccessOk o 4 = true := by
  simp only [registerAccessOk, beq_self_eq_true, ho, Bool.true_and, decide_eq_true_eq]
  omega

theorem step_regRead {s : State} {o : Nat} {rest : List HostEvent} (h : s.host = .regRead o 4 :: rest)
    (ho : o % 4 = 0) (hlt : o < 256) :
    step s = .next { s with host := rest, busData := some (s.readRegister o) } := by
  rw [step_cons h, State.hostStep, if_pos (registerAccessOk_word ho hlt)]
  rfl

theorem step_regWrite {s : State} {o : Nat} {v : Word} {rest : List HostEvent} (h : s.host = .regWrite o 4 v :: rest)
    (ho : o % 4 = 0) (hlt : o < 256) (hcmd : o = 0x0C → s.busy = true → s.strict = false) :
    step s = .next (State.writeRegister { s with host := rest } o v) := by
  have hguard : (s.strict && s.busy && o == 0x0C) = false := by
    by_cases hoc : o = 0x0C
    · cases hb : s.busy with
      | false => simp
      | true => simp [hcmd hoc hb]
    · simp [hoc]
  rw [step_cons h, State.hostStep, if_pos (registerAccessOk_word ho hlt)]
  exact (guardContract_next ..).2 ⟨hguard, rfl⟩

/-! ## The reserved offsets -/

theorem readRegister_reserved (s : State) {o : Nat} (ho : 0x2C ≤ o) : s.readRegister o = 0 := by
  unfold State.readRegister
  split
  case h_12 => rfl
  all_goals omega

theorem writeRegister_reserved (s : State) {o : Nat} (v : Word) (ho : 0x2C ≤ o) : s.writeRegister o v = s := by
  unfold State.writeRegister
  split
  case h_8 => rfl
  all_goals omega

/-! ## The words of CTRL, STATUS and CTXINFO -/

theorem getLsbD_bit (b : Bool) : (bit b).getLsbD 0 = b := by cases b <;> rfl

theorem ctrlWord_fields (s : State) : s.ctrlWord.getLsbD 0 = s.ie ∧ s.ctrlWord.extractLsb' 1 31 = 0 := by
  constructor
  · simp only [State.ctrlWord, BitVec.getLsbD_append, Nat.reduceLT, if_true, getLsbD_bit]
  · rw [State.ctrlWord, BitVec.extractLsb'_append_eq_of_le (by decide)]
    rfl

theorem statusWord_bits (s : State) :
    s.statusWord.getLsbD 0 = s.busy ∧ s.statusWord.getLsbD 1 = s.done ∧ s.statusWord.getLsbD 2 = s.ovr ∧
    s.statusWord.getLsbD 3 = s.keyv ∧ s.statusWord.getLsbD 6 = s.cbc.cbcv ∧ s.statusWord.getLsbD 7 = s.ctr.ctrv ∧
    s.statusWord.getLsbD 8 = s.xts.xtsv := by
  simp only [State.statusWord, BitVec.getLsbD_append, Nat.reduceLT, Nat.reduceSub, if_true, if_false, getLsbD_bit,
    and_self]

theorem statusWord_fields (s : State) :
    s.statusWord.extractLsb' 4 2 = s.ksz.code ∧ s.statusWord.extractLsb' 9 2 = s.ghash.ghph.code ∧
    s.statusWord.extractLsb' 11 5 = 0 ∧ s.statusWord.extractLsb' 16 8 = s.err.code ∧
    s.statusWord.extractLsb' 24 8 = 0 := by
  simp (disch := decide) only [State.statusWord, BitVec.extractLsb'_append_eq_of_add_le,
    BitVec.extractLsb'_append_eq_of_le]
  exact ⟨BitVec.extractLsb'_eq_self, BitVec.extractLsb'_eq_self, rfl, BitVec.extractLsb'_eq_self, rfl⟩

theorem ctxInfoWord_fields (s : State) :
    s.ctxInfoWord.extractLsb' 0 4 = s.ctr.kslen ∧ s.ctxInfoWord.extractLsb' 4 4 = s.ghash.blen ∧
    s.ctxInfoWord.extractLsb' 8 4 = s.nrField ∧ s.ctxInfoWord.extractLsb' 12 20 = 0 := by
  simp (disch := decide) only [State.ctxInfoWord, BitVec.extractLsb'_append_eq_of_add_le,
    BitVec.extractLsb'_append_eq_of_le]
  exact ⟨BitVec.extractLsb'_eq_self, BitVec.extractLsb'_eq_self, BitVec.extractLsb'_eq_self, rfl⟩

/-- NR is `Nr` of R39 with a schedule loaded, and 0 without one (R33). -/
theorem nrField_eq (s : State) : s.nrField = if s.keyv = true then
      (match s.ksz with | .bytes16 => 10#4 | .bytes24 => 12#4 | .bytes32 => 14#4) else 0#4 := by
  unfold State.nrField
  cases s.ksz <;> rfl

/-! ## The obligations -/

/-- Settles O11: a register access is the step's whole effect, and each offset is a row of the map. -/
theorem registerMapReadsAndWrites : Obligations.RegisterMapReadsAndWrites := by
  intro s v
  obtain ⟨hie, hctrl⟩ := ctrlWord_fields s
  refine ⟨fun o rest ho hlt => ⟨fun h => step_regRead h ho hlt, fun h => step_regWrite h ho hlt⟩,
    rfl, hie, hctrl, rfl, rfl, fun hm => ?_,
    fun o hlo _ _ => ⟨readRegister_reserved s hlo, writeRegister_reserved s v hlo⟩,
    rfl, rfl, rfl, rfl, rfl, rfl, rfl, rfl, rfl, rfl, rfl, rfl, fun hv => ?_⟩
  · exact Nat.mod_eq_of_lt (hm.trans_lt (by decide))
  · change s.writeCtrl v = _
    rw [State.writeCtrl, hv]
    rfl

/-- Settles O13, from the places of the fields in the word and the number of rounds. -/
theorem ctxInfoFieldsRead : Obligations.CtxInfoFieldsRead := by
  intro s v
  obtain ⟨hkslen, hblen, hnr, hzero⟩ := ctxInfoWord_fields s
  exact ⟨hkslen, hblen, hnr.trans (nrField_eq s), hzero, rfl⟩

/-- Settles O12, from the places of the bits and fields in the word; the numbers are read off the codes. -/
theorem statusFieldsReadAndClear : Obligations.StatusFieldsReadAndClear := by
  intro s v
  obtain ⟨hbusy, hdone, hovr, hkeyv, hcbcv, hctrv, hxtsv⟩ := statusWord_bits s
  obtain ⟨hksz, hghph, hlow, herr, hhigh⟩ := statusWord_fields s
  refine ⟨⟨hbusy, hdone, hovr, hkeyv, hksz, ?_, hcbcv, hctrv, hxtsv, hghph.trans ?_, hlow, herr, ?_, hhigh⟩,
    _, rfl, rfl, rfl, rfl⟩
  · cases s.ksz <;> rfl
  · cases s.ghash.ghph <;> rfl
  · cases s.err <;> rfl

end Sys2Proof.Machine

/-! # The command word: its fields, and the round trip of decoder and encoder -/

namespace Sys2Proof

/-! ## The fields of a word -/

@[simp] theorem opField_encode (i : Instr) : opField (encode i) = i.opcode :=
  BitVec.extractLsb'_append_eq_right

@[simp] theorem padField_encode (i : Instr) : padField (encode i) = i.padBits := by
  simp (disch := decide) only [padField, encode, BitVec.extractLsb'_append_eq_of_le]
  exact BitVec.extractLsb'_append_eq_right

@[simp] theorem idxField_encode (i : Instr) : idxField (encode i) = i.idxBits := by
  simp (disch := decide) only [idxField, encode, BitVec.extractLsb'_append_eq_of_le]
  exact BitVec.extractLsb'_append_eq_right

@[simp] theorem reservedClear_encode (i : Instr) : reservedClear (encode i) = true := by
  simp (disch := decide) only [reservedClear, encode, BitVec.extractLsb'_append_eq_of_le,
    BitVec.extractLsb'_append_eq_of_add_le]
  decide

/-- A word with its reserved bits clear is its three fields, with zeros between. -/
theorem fields_append {w : Word} (h : reservedClear w = true) :
    (0#12 ++ idxField w ++ 0#6 ++ padField w ++ opField w : BitVec 32) = w := by
  simp only [reservedClear, Bool.and_eq_true, beq_iff_eq] at h
  obtain ⟨hlow, hhigh⟩ := h
  rw [← hlow, ← hhigh, idxField, padField, opField]
  simp (disch := decide) only [BitVec.extractLsb'_append_extractLsb'_eq_extractLsb']
  exact BitVec.extractLsb'_eq_self

/-! ## The numbers of the fields -/

theorem opField_toNat (w : Word) : (opField w).toNat = w.toNat % 256 := BitVec.extractLsb'_toNat ..

theorem padField_toNat (w : Word) : (padField w).toNat = w.toNat / 256 % 4 := by
  rw [padField, BitVec.extractLsb'_toNat, Nat.shiftRight_eq_div_pow]

theorem idxField_toNat (w : Word) : (idxField w).toNat = w.toNat / 65536 % 16 := by
  rw [idxField, BitVec.extractLsb'_toNat, Nat.shiftRight_eq_div_pow]

theorem reservedClear_iff (w : Word) :
    reservedClear w = true ↔ w.toNat / 1024 % 64 = 0 ∧ w.toNat / 1048576 = 0 := by
  have hw := w.isLt
  simp only [reservedClear, Bool.and_eq_true, beq_iff_eq, ← BitVec.toNat_inj, BitVec.extractLsb'_toNat,
    BitVec.toNat_ofNat, Nat.zero_mod, Nat.shiftRight_eq_div_pow, Nat.reducePow]
  omega

/-! ## Which fields a command takes -/

theorem takesPad_iff (i : Instr) : i.takesPad = true ↔
    i.opcode.toNat = 0x20 ∨ i.opcode.toNat = 0x21 ∨ i.opcode.toNat = 0x29 ∨ i.opcode.toNat = 0x2A ∨
    i.opcode.toNat = 0x39 ∨ i.opcode.toNat = 0x3A := by
  cases i <;> simp [Instr.takesPad, Instr.opcode]

theorem takesIdx_iff (i : Instr) : i.takesIdx = true ↔ i.opcode.toNat = 3 ∨ i.opcode.toNat = 4 := by
  cases i <;> simp [Instr.takesIdx, Instr.opcode]

/-- Of the fields a command holds, only PAD and STATE_READ's selector have reserved values (R123, R124). -/
theorem wellFormed_iff (i : Instr) :
    i.wellFormed = true ↔ i.padBits.toNat ≤ 1 ∧ (i.opcode.toNat = 4 → i.idxBits.toNat ≤ 7) := by
  cases i <;> simp [Instr.wellFormed, Instr.padBits, Instr.idxBits, Instr.opcode, padLegal, selLegal]

/-! ## The opcode map and the field checks -/

/-- The opcodes R128 assigns no command. -/
theorem instrOf_eq_none_iff (op : BitVec 8) (pad : BitVec 2) (idx : BitVec 4) : instrOf op pad idx = none ↔
    (0x09 ≤ op.toNat ∧ op.toNat ≤ 0x0F) ∨ (0x12 ≤ op.toNat ∧ op.toNat ≤ 0x1F) ∨
    (0x22 ≤ op.toNat ∧ op.toNat ≤ 0x27) ∨ (0x2B ≤ op.toNat ∧ op.toNat ≤ 0x2F) ∨
    (0x32 ≤ op.toNat ∧ op.toNat ≤ 0x37) ∨ (0x3D ≤ op.toNat ∧ op.toNat ≤ 0x3F) ∨ 0x43 ≤ op.toNat := by
  unfold instrOf
  split
  case h_27 =>
    simp only [imp_false, true_iff] at *
    omega
  all_goals
    simp only [reduceCtorEq, false_iff]
    omega

@[simp] theorem instrOf_opcode (i : Instr) : instrOf i.opcode i.padBits i.idxBits = some i := by
  cases i <;> rfl

/-- The map gives a command of that opcode, whose own field is the word's where it takes the field, and else is
zero. -/
theorem instrOf_eq_some {op : BitVec 8} {pad : BitVec 2} {idx : BitVec 4} {i : Instr}
    (h : instrOf op pad idx = some i) :
    i.opcode = op ∧ (i.padBits = pad ↔ i.takesPad = true ∨ pad = 0) ∧
      (i.idxBits = idx ↔ i.takesIdx = true ∨ idx = 0) := by
  unfold instrOf at h
  split at h <;> cases h
  all_goals
    refine ⟨(BitVec.eq_of_toNat_eq ‹_›).symm, ?_, ?_⟩ <;>
      simp [Instr.padBits, Instr.takesPad, Instr.idxBits, Instr.takesIdx, @eq_comm _ 0#2 pad, @eq_comm _ 0#4 idx]

/-- The field checks pass when the word's fields are the command's own and hold no reserved value (R126). -/
theorem checkFields_eq_ok_iff {op : BitVec 8} {pad : BitVec 2} {idx : BitVec 4} {i j : Instr}
    (h : instrOf op pad idx = some i) : checkFields i pad idx = .ok j ↔
      i = j ∧ i.padBits = pad ∧ i.idxBits = idx ∧ i.wellFormed = true := by
  obtain ⟨-, hpad, hidx⟩ := instrOf_eq_some h
  have hlegal (hwf : i.wellFormed = true) (hp : i.takesPad = true) : padLegal pad = true :=
    hpad.2 (.inl hp) ▸ decide_eq_true ((wellFormed_iff i).1 hwf).1
  rw [hpad, hidx]
  unfold checkFields
  split_ifs <;> grind

/-! ## The decoder -/

/-- The decoder is the inverse of the encoder on the well-formed commands, and answers nothing else. -/
theorem decode_eq_ok_iff {w : Word} {i : Instr} : decode w = .ok i ↔ encode i = w ∧ i.wellFormed = true := by
  constructor
  · intro h
    unfold decode at h
    split at h
    case isTrue => cases h
    case isFalse hr =>
      split at h
      case h_1 => cases h
      case h_2 j hj =>
        obtain ⟨rfl, hpad, hidx, hwf⟩ := (checkFields_eq_ok_iff hj).1 h
        rw [encode, (instrOf_eq_some hj).1, hpad, hidx]
        exact ⟨fields_append (by simpa using hr), hwf⟩
  · rintro ⟨rfl, hwf⟩
    simp [decode, (checkFields_eq_ok_iff (instrOf_opcode i)).2 ⟨rfl, rfl, rfl, hwf⟩]

/-- Settles O1: the inverse law, from the command's side. -/
theorem decodeOfEncodedCommandIsTheCommand : Obligations.DecodeOfEncodedCommandIsTheCommand :=
  fun _ hwf => decode_eq_ok_iff.2 ⟨rfl, hwf⟩

/-- Settles O2: the inverse law, from the word's side. -/
theorem encodeOfDecodedWordIsTheWord : Obligations.EncodeOfDecodedWordIsTheWord :=
  fun _ _ => decode_eq_ok_iff.1

/-- Settles O3: each word is that of a well-formed command. -/
theorem specWordsDecodeToTheirCommands : Obligations.SpecWordsDecodeToTheirCommands := by
  and_intros
  all_goals exact decode_eq_ok_iff.2 (by decide)

theorem exists_eq_error_iff {ε α : Type} {x : Except ε α} : (∃ e, x = .error e) ↔ ∀ a, x ≠ .ok a := by
  cases x <;> simp

end Sys2Proof

/-! # The illegal words, and the key the commands need -/

namespace Sys2Proof.Machine

/-! ## The illegal words -/

/-- A word with its reserved bits clear and an opcode of the map is on R129's list when its fields are not the
command's own, or hold a reserved value. -/
theorem illegalWord_of_instrOf {w : Word} {i : Instr} (hr : reservedClear w = true)
    (hi : instrOf (opField w) (padField w) (idxField w) = some i) : illegalWord w ↔
      ¬(i.padBits = padField w ∧ i.idxBits = idxField w ∧ i.wellFormed = true) := by
  have hassigned := mt (instrOf_eq_none_iff ..).2 (Option.isSome_iff_ne_none.1 (Option.isSome_of_eq_some hi))
  obtain ⟨hop, hpad, hidx⟩ := instrOf_eq_some hi
  rw [reservedClear_iff] at hr
  simp only [takesPad_iff, takesIdx_iff, wellFormed_iff, hop, ← BitVec.toNat_inj, opField_toNat, padField_toNat,
    idxField_toNat, BitVec.ofNat_eq_ofNat, BitVec.toNat_ofNat, Nat.zero_mod] at hassigned hpad hidx ⊢
  simp only [illegalWord]
  omega

theorem exists_decode_eq_error_iff (w : Word) : (∃ e, decode w = .error e) ↔ illegalWord w := by
  cases hr : reservedClear w with
  | false =>
    refine iff_of_true ⟨.reservedBits, by simp [decode, hr]⟩ ?_
    have hreserved := mt (reservedClear_iff w).2 (Bool.eq_false_iff.1 hr)
    simp only [illegalWord]
    omega
  | true =>
    cases hi : instrOf (opField w) (padField w) (idxField w) with
    | none =>
      refine iff_of_true ⟨.unknownOp, by simp [decode, hr, hi]⟩ ?_
      have hunassigned := (instrOf_eq_none_iff ..).1 hi
      rw [opField_toNat] at hunassigned
      simp only [illegalWord]
      omega
    | some i =>
      have hd : decode w = checkFields i (padField w) (idxField w) := by simp [decode, hr, hi]
      rw [illegalWord_of_instrOf hr hi, exists_eq_error_iff]
      simp only [hd, ne_eq, checkFields_eq_ok_iff hi, not_and, forall_eq']

theorem coreTurn_illegal {s : State} (h : s.busy = true) (hi : illegalWord s.cmdl) :
    s.coreTurn = .next (s.complete .illegalCmd) := by
  obtain ⟨e, he⟩ := (exists_decode_eq_error_iff s.cmdl).2 hi
  simp [State.coreTurn, State.coreStep, h, he, raiseError]

/-- Settles O4: the fields of the word against R129's list, and the core's turn on a word the decoder rejects. -/
theorem illegalWordsCompleteWithIllegalCmd : Obligations.IllegalWordsCompleteWithIllegalCmd :=
  ⟨exists_decode_eq_error_iff, fun _ hbusy hi =>
    ⟨_, coreTurn_illegal hbusy hi, rfl, by simp [State.irq]⟩⟩

/-! ## The key -/

theorem needsKey_iff (i : Instr) : i.needsKey = true ↔
    (∃ r, i = .ksRead r) ∨ i = .blkEnc ∨ i = .blkDec ∨ (∃ p, i = .ecbEnc p ∨ i = .ecbDec p) ∨
      (∃ p, i = .cbcEnc p ∨ i = .cbcDec p) ∨ i = .ctrXor ∨ i = .xtsSettweak ∨
      (∃ p, i = .xexEnc p ∨ i = .xexDec p) ∨ i = .xtsEnc ∨ i = .xtsDec := by
  cases i <;> simp [Instr.needsKey]

theorem check_keyv {s : State} {k : Result} (h : s.keyv = false) :
    check s.keyv .noKey s k = .next (s.complete .noKey) := by
  rw [h]
  rfl

/-- A legal PAD selects a variant of the padding (R123). -/
theorem isSome_ofField? : ∀ pad, padLegal pad = true → (Pad.ofField? pad).isSome = true := by decide

/-- With a legal PAD, a command answers what it answers for every variant of the padding. -/
theorem withPad_eq {pad : BitVec 2} {s : State} {k : Pad → Result} {r : Result} (hpad : padLegal pad = true)
    (hk : ∀ p, k p = r) : withPad pad s k = r := by
  obtain ⟨p, hp⟩ := Option.isSome_iff_exists.1 (isSome_ofField? pad hpad)
  rw [withPad, hp]
  exact hk p

theorem exec_noKey {i : Instr} {s : State} (hwf : i.wellFormed = true) (hi : i.needsKey = true)
    (hs : s.keyv = false) : exec i s = .next (s.complete .noKey) := by
  cases i with
  | ksRead | blkEnc | blkDec | ctrXor | xtsSettweak | xtsEnc | xtsDec => exact check_keyv hs
  | ecbEnc | ecbDec | cbcEnc | cbcDec | xexEnc | xexDec => exact withPad_eq hwf fun _ => check_keyv hs
  | _ => cases hi

/-- The result is no next state that reports the code. -/
def Avoids (code : ErrCode) (r : Result) : Prop := ∀ t, r = .next t → t.err ≠ code

theorem Avoids.raiseError {code c : ErrCode} {s : State} (h : c ≠ code) : Avoids code (raiseError c s) := by
  intro t ht
  obtain rfl := (raiseError_next ..).1 ht
  exact h

theorem Avoids.succeed {code : ErrCode} {s : State} (h : .ok ≠ code) : Avoids code (succeed s) := .raiseError h

theorem Avoids.check {code c : ErrCode} {ok : Bool} {s : State} {k : Result} (h : c ≠ code) (hk : Avoids code k) :
    Avoids code (check ok c s k) := by
  cases ok with
  | true => exact hk
  | false => exact .raiseError h

theorem execKeyLoad_avoids_noKey (s : State) : Avoids .noKey (execKeyLoad s) := by
  unfold execKeyLoad
  split
  · exact .raiseError nofun
  · exact .check nofun (.succeed nofun)

theorem execStateRead_avoids_noKey (sel : BitVec 4) (s : State) : Avoids .noKey (execStateRead sel s) := by
  unfold execStateRead
  split
  · exact .raiseError nofun
  · exact .check nofun (.succeed nofun)

theorem exec_avoids_noKey {i : Instr} (s : State) (hi : i.needsKey = false) : Avoids .noKey (exec i s) := by
  cases i with
  | nop | keyClear => exact .succeed nofun
  | keyLoad => exact execKeyLoad_avoids_noKey s
  | stateRead sel => exact execStateRead_avoids_noKey sel s
  | gf8Mul | sboxFwd | sboxInv | gf128Mul | cbcSetiv | ctrSetctr | ghashInit => exact .check nofun (.succeed nofun)
  | ghashUpdate | ghashFinal => exact .check nofun (.check nofun (.succeed nofun))
  | _ => cases hi

/-- Settles O25: a command that needs the key checks for it first, and no other command reports NO_KEY. -/
theorem keyUsingCommandsRaiseNoKey : Obligations.KeyUsingCommandsRaiseNoKey := by
  intro i s hwf hs
  rw [← needsKey_iff]
  refine ⟨fun hi => exec_noKey hwf hi hs, fun h => ?_⟩
  by_contra hi
  exact exec_avoids_noKey s (Bool.eq_false_iff.2 hi) _ h rfl

end Sys2Proof.Machine

/-! # Byte strings as numbers -/

namespace Sys2Proof

/-! ## Big-endian numbers -/

theorem beNat_concat (l : List Byte) (b : Byte) : beNat (l ++ [b]) = 256 * beNat l + b.toNat := by
  simp [beNat]

@[simp] theorem beBytes_length (n x : Nat) : (beBytes n x).length = n := by simp [beBytes]

theorem beBytes_succ (n x : Nat) : beBytes (n + 1) x = beBytes n (x / 256) ++ [BitVec.ofNat 8 x] := by
  simp only [beBytes, List.range_succ, List.map_append, List.map_singleton]
  congr 1
  · refine List.map_congr_left fun i hi => ?_
    have hexp : n + 1 - 1 - i = n - 1 - i + 1 := by have := List.mem_range.1 hi; omega
    rw [hexp, Nat.pow_succ', Nat.div_div_eq_div_mul]
  · simp

theorem beNat_beBytes (n x : Nat) : beNat (beBytes n x) = x % 256 ^ n := by
  induction n generalizing x with
  | zero => simp [beBytes, beNat, Nat.mod_one]
  | succ n ih => rw [beBytes_succ, beNat_concat, ih, Nat.pow_succ', Nat.mod_mul, BitVec.toNat_ofNat, Nat.add_comm]

theorem beBytes_beNat (l : List Byte) : beBytes l.length (beNat l) = l := by
  induction l using List.reverseRecOn with
  | nil => rfl
  | append_singleton l b ih =>
    have hdiv : (256 * beNat l + b.toNat) / 256 = beNat l := by omega
    rw [List.length_append, List.length_singleton, beBytes_succ, beNat_concat, hdiv, ih]
    simp [BitVec.ofNat_add, BitVec.ofNat_mul]

theorem beBytes_xor (n x y : Nat) : beBytes n (x ^^^ y) = xorBytes (beBytes n x) (beBytes n y) := by
  have hbyte (k : Nat) : BitVec.ofNat 8 ((x ^^^ y) / 256 ^ k) =
      BitVec.ofNat 8 (x / 256 ^ k) ^^^ BitVec.ofNat 8 (y / 256 ^ k) := by
    rw [show 256 ^ k = 2 ^ (8 * k) by rw [Nat.pow_mul], Nat.xor_div_two_pow, BitVec.ofNat_xor]
  simp [beBytes, xorBytes, hbyte, List.zipWith_map, List.zipWith_self]

/-! ## A block as a 128-bit word -/

/-- `be128` of a block, as the word the multiplier of R167 works on. -/
def Block.bits (b : Block) : BitVec 128 := BitVec.ofNat 128 b.be128

/-- `from_be128` of a word. -/
def Block.ofBits (u : BitVec 128) : Block := Block.fromBe128 u.toNat

theorem gf128mul_eq_ofBits (x y : Block) : gf128mul x y = Block.ofBits (gf128mulBits x.bits y.bits) := rfl

theorem Block.toBytes_ofBits (u : BitVec 128) : (Block.ofBits u).toBytes = beBytes 16 u.toNat :=
  Block.toBytes_ofBytes _ (beBytes_length ..)

@[simp] theorem Block.bits_ofBits (u : BitVec 128) : (Block.ofBits u).bits = u := by
  rw [Block.bits, Block.be128, Block.toBytes_ofBits, beNat_beBytes]
  exact BitVec.eq_of_toNat_eq (by simp; omega)

theorem beNat_lt (l : List Byte) : beNat l < 256 ^ l.length := by
  rw [← beBytes_beNat l, beNat_beBytes, beBytes_length]
  exact Nat.mod_lt _ (by positivity)

@[simp] theorem Block.ofBits_bits (b : Block) : Block.ofBits b.bits = b := by
  have hlt : b.be128 < 2 ^ 128 := (beNat_lt b.toBytes).trans_eq (by norm_num)
  rw [Block.ofBits, Block.bits, BitVec.toNat_ofNat, Nat.mod_eq_of_lt hlt, Block.fromBe128, Block.be128]
  exact (congrArg Block.ofBytes (beBytes_beNat b.toBytes)).trans (Block.ofBytes_toBytes b)

theorem Block.toBytes_xor (a b : Block) : (a.xor b).toBytes = xorBytes a.toBytes b.toBytes := rfl

theorem Block.ofBits_xor (u v : BitVec 128) : Block.ofBits (u ^^^ v) = (Block.ofBits u).xor (Block.ofBits v) := by
  rw [← Block.ofBytes_toBytes ((Block.ofBits u).xor _), Block.toBytes_xor, Block.toBytes_ofBits, Block.toBytes_ofBits,
    ← beBytes_xor, ← BitVec.toNat_xor, ← Block.toBytes_ofBits, Block.ofBytes_toBytes]

@[simp] theorem Block.bits_xor (a b : Block) : (a.xor b).bits = a.bits ^^^ b.bits := by
  rw [← Block.bits_ofBits (a.bits ^^^ b.bits), Block.ofBits_xor, Block.ofBits_bits, Block.ofBits_bits]

@[simp] theorem Block.bits_zero : Block.zero.bits = 0 := by decide

/-! ## Little-endian numbers -/

theorem leNat_cons (b : Byte) (l : List Byte) : leNat (b :: l) = b.toNat + 256 * leNat l := rfl

theorem leNat_lt (l : List Byte) : leNat l < 256 ^ l.length := by
  induction l with
  | nil => decide
  | cons b l ih =>
    rw [leNat_cons, List.length_cons, Nat.pow_succ]
    omega

theorem leNat_xor_cons (b c : Byte) (l : List Byte) : leNat ((b ^^^ c) :: l) = leNat (b :: l) ^^^ c.toNat := by
  rw [leNat_cons, leNat_cons]
  have hmod := Nat.xor_mod_two_pow (a := b.toNat + 256 * leNat l) (b := c.toNat) (n := 8)
  have hdiv := Nat.xor_div_two_pow (a := b.toNat + 256 * leNat l) (b := c.toNat) (n := 8)
  have hb : (b.toNat + 256 * leNat l) % 2 ^ 8 = b.toNat := by omega
  have hl : (b.toNat + 256 * leNat l) / 2 ^ 8 = leNat l := by omega
  have hc : c.toNat / 2 ^ 8 = 0 := by omega
  rw [hb, Nat.mod_eq_of_lt c.isLt] at hmod
  rw [hl, hc, Nat.xor_zero] at hdiv
  rw [BitVec.toNat_xor]
  omega

end Sys2Proof

/-! # The multipliers of GF(2^8) and GF(2^128) -/

namespace Sys2Proof

/-! ## Shift and add

The loops of R161 and R167 are one multiplier: it adds the multiplicand where the multiplier's bit is set, then
steps the multiplicand on. They differ in the step and in the order of the bits. -/

/-- The sum of `z` and of the multiplicands `x`, `step x`, … whose bit is set. -/
def shiftAdd {w : Nat} (step : BitVec w → BitVec w) : List Bool → BitVec w → BitVec w → BitVec w
  | [], _, z => z
  | b :: bs, x, z => shiftAdd step bs (step x) (if b then z ^^^ x else z)

/-- The function distributes over exclusive or. -/
def XorLinear {w : Nat} (f : BitVec w → BitVec w) : Prop := ∀ x y, f (x ^^^ y) = f x ^^^ f y

section
variable {w : Nat}

theorem XorLinear.map_zero {f : BitVec w → BitVec w} (hf : XorLinear f) : f 0 = 0 := by
  simpa using hf 0 0

/-- A linear function that commutes with the step goes through the multiplier. -/
theorem map_shiftAdd {f step : BitVec w → BitVec w} (hf : XorLinear f) (hstep : ∀ x, f (step x) = step (f x))
    (bs : List Bool) (x z : BitVec w) : f (shiftAdd step bs x z) = shiftAdd step bs (f x) (f z) := by
  induction bs generalizing x z with
  | nil => rfl
  | cons b bs ih => rw [shiftAdd, shiftAdd, ih, hstep, apply_ite f, hf]

theorem shiftAdd_xor {step : BitVec w → BitVec w} (hs : XorLinear step) (bs : List Bool) (x x' z z' : BitVec w) :
    shiftAdd step bs (x ^^^ x') (z ^^^ z') = shiftAdd step bs x z ^^^ shiftAdd step bs x' z' := by
  induction bs generalizing x x' z z' with
  | nil => rfl
  | cons b bs ih =>
    have hadd : (if b then z ^^^ z' ^^^ (x ^^^ x') else z ^^^ z') =
        (if b then z ^^^ x else z) ^^^ (if b then z' ^^^ x' else z') := by
      cases b with
      | false => rfl
      | true => simp only [if_true]; ac_rfl
    rw [shiftAdd, shiftAdd, shiftAdd, hs, hadd, ih]

theorem xorLinear_shiftAdd {step : BitVec w → BitVec w} (hs : XorLinear step) (bs : List Bool) :
    XorLinear (shiftAdd step bs · 0) := fun x y => by
  simpa using shiftAdd_xor hs bs x y 0 0

/-- The product by a first and then by a second multiplier does not depend on their order. -/
theorem shiftAdd_right_comm {step : BitVec w → BitVec w} (hs : XorLinear step) (bs cs : List Bool) (x : BitVec w) :
    shiftAdd step cs (shiftAdd step bs x 0) 0 = shiftAdd step bs (shiftAdd step cs x 0) 0 := by
  have hstep (y : BitVec w) : shiftAdd step cs (step y) 0 = step (shiftAdd step cs y 0) := by
    rw [map_shiftAdd hs (fun _ => rfl), hs.map_zero]
  have hlin := xorLinear_shiftAdd hs cs
  exact (map_shiftAdd hlin hstep bs x 0).trans (by rw [hlin.map_zero])

/-- A step that shifts, and adds a constant where a bit is lost, is linear. -/
theorem xorLinear_reduce {shift : BitVec w → BitVec w} (hs : XorLinear shift) (i : Nat) (r : BitVec w) :
    XorLinear fun x => if x.getLsbD i then shift x ^^^ r else shift x := fun x y => by
  simp only [BitVec.getLsbD_xor, hs x y]
  cases x.getLsbD i <;> cases y.getLsbD i <;> simp [BitVec.xor_assoc, BitVec.xor_comm r]

end

/-! ## GF(2^8) -/

theorem xorLinear_xtime : XorLinear xtime :=
  xorLinear_reduce (shift := (· <<< 1)) (fun x y => BitVec.shiftLeft_xor_distrib x y 1) 7 0x1B#8

theorem gmulLoop_eq_shiftAdd (n : Nat) (a b p : Byte) :
    gmulLoop n a b p = shiftAdd xtime ((List.range n).map b.getLsbD) a p := by
  induction n generalizing a b p with
  | zero => rfl
  | succ n ih =>
    rw [gmulLoop, ih, List.range_succ_eq_map, List.map_cons, shiftAdd, List.map_map]
    congr 2
    funext i
    simp [Nat.add_comm 1]

theorem gmul_eq_shiftAdd (a b : Byte) : gmul a b = shiftAdd xtime ((List.range 8).map b.getLsbD) a 0 :=
  gmulLoop_eq_shiftAdd ..

theorem gmul_right_comm (a b c : Byte) : gmul (gmul a b) c = gmul (gmul a c) b := by
  simp only [gmul_eq_shiftAdd]
  exact shiftAdd_right_comm xorLinear_xtime ..

theorem xor_gmul (a b c : Byte) : gmul (a ^^^ b) c = gmul a c ^^^ gmul b c := by
  simp only [gmul_eq_shiftAdd]
  exact xorLinear_shiftAdd xorLinear_xtime _ a b

@[simp] theorem one_gmul (a : Byte) : gmul 1#8 a = a := by
  revert a
  decide +kernel

/-- Commuting follows from `gmul_right_comm` on the product of 1. -/
theorem gmul_comm (a b : Byte) : gmul a b = gmul b a := by
  simpa using gmul_right_comm 1 a b

theorem gmul_assoc (a b c : Byte) : gmul (gmul a b) c = gmul a (gmul b c) := by
  rw [gmul_comm a b, gmul_right_comm, gmul_comm a]

theorem gmul_xor (a b c : Byte) : gmul a (b ^^^ c) = gmul a b ^^^ gmul a c := by
  simp only [gmul_comm a, xor_gmul]

@[simp] theorem gmul_one (a : Byte) : gmul a 1#8 = a := by rw [gmul_comm, one_gmul]

@[simp] theorem zero_gmul (a : Byte) : gmul 0#8 a = 0#8 := by simpa using xor_gmul 0 0 a

@[simp] theorem gmul_zero (a : Byte) : gmul a 0#8 = 0#8 := by rw [gmul_comm, zero_gmul]

/-- Settles O56: the multiplier of R161 is linear in its first operand, and commutes because 1 is its identity. -/
theorem gmulIsACommutativeProduct : Obligations.GmulIsACommutativeProduct := fun a b c =>
  ⟨gmul_comm a b, gmul_xor a b c, gmul_zero a, gmul_one a⟩

/-! ## GF(2^128) -/

theorem xorLinear_gf128Shift : XorLinear gf128Shift :=
  xorLinear_reduce (shift := (· >>> 1)) (fun x y => BitVec.ushiftRight_xor_distrib x y 1) 0 (0xE1#128 <<< 120)

theorem gf128Loop_eq_shiftAdd (n : Nat) (x y z : BitVec 128) :
    gf128Loop n x y z = shiftAdd gf128Shift ((List.range n).reverse.map y.getLsbD) x z := by
  induction n generalizing x z with
  | zero => rfl
  | succ n ih => simp [gf128Loop, ih, List.range_succ, shiftAdd]

theorem gf128mulBits_eq_shiftAdd (x y : BitVec 128) :
    gf128mulBits x y = shiftAdd gf128Shift ((List.range 128).reverse.map y.getLsbD) x 0 :=
  gf128Loop_eq_shiftAdd ..

theorem gf128mulBits_right_comm (x y z : BitVec 128) :
    gf128mulBits (gf128mulBits x y) z = gf128mulBits (gf128mulBits x z) y := by
  simp only [gf128mulBits_eq_shiftAdd]
  exact shiftAdd_right_comm xorLinear_gf128Shift ..

theorem xor_gf128mulBits (x y z : BitVec 128) :
    gf128mulBits (x ^^^ y) z = gf128mulBits x z ^^^ gf128mulBits y z := by
  simp only [gf128mulBits_eq_shiftAdd]
  exact xorLinear_shiftAdd xorLinear_gf128Shift _ x y

theorem gf128Shift_twoPow {n : Nat} (hn : n < 127) :
    gf128Shift (BitVec.twoPow 128 (n + 1)) = BitVec.twoPow 128 n := by
  have hbit : (BitVec.twoPow 128 (n + 1)).getLsbD 0 = false := by simp
  rw [gf128Shift, hbit, if_neg Bool.false_ne_true]
  ext i hi
  simp only [BitVec.getElem_ushiftRight, BitVec.getLsbD_twoPow, BitVec.getElem_twoPow]
  grind

theorem getLsbD_ite_xor_twoPow {n : Nat} (hn : n < 128) (y z : BitVec 128) (j : Nat) :
    (if y.getLsbD n then z ^^^ BitVec.twoPow 128 n else z).getLsbD j =
      (z.getLsbD j ^^ (decide (j = n) && y.getLsbD j)) := by
  by_cases hj : j = n
  · subst hj
    cases hy : y.getLsbD j <;> simp [hn]
  · cases hy : y.getLsbD n <;> simp [BitVec.getLsbD_twoPow, hj, Ne.symm hj]

/-- From the power of two at bit `n` the loop adds the low `n + 1` bits of the multiplier. -/
theorem getLsbD_gf128Loop_twoPow {n : Nat} (hn : n < 128) (y z : BitVec 128) (j : Nat) :
    (gf128Loop (n + 1) (BitVec.twoPow 128 n) y z).getLsbD j = (z.getLsbD j ^^ (decide (j ≤ n) && y.getLsbD j)) := by
  induction n generalizing z with
  | zero => simpa [gf128Loop] using getLsbD_ite_xor_twoPow hn y z j
  | succ n ih =>
    have hle : decide (j ≤ n + 1) = (decide (j = n + 1) ^^ decide (j ≤ n)) := by grind
    rw [gf128Loop, gf128Shift_twoPow (by omega), ih (by omega), getLsbD_ite_xor_twoPow hn, Bool.xor_assoc, hle,
      Bool.and_xor_distrib_right]

/-- The identity of R167, the string `80 00..00`, is bit 127. -/
theorem twoPow_gf128mulBits (y : BitVec 128) : gf128mulBits (BitVec.twoPow 128 127) y = y := by
  refine BitVec.eq_of_getLsbD_eq fun j hj => ?_
  rw [gf128mulBits, getLsbD_gf128Loop_twoPow (by decide)]
  rw [decide_eq_true (Nat.le_of_lt_succ hj)]
  simp

theorem gf128mulBits_comm (x y : BitVec 128) : gf128mulBits x y = gf128mulBits y x := by
  simpa only [twoPow_gf128mulBits] using gf128mulBits_right_comm (BitVec.twoPow 128 127) x y

theorem gf128mul_comm (x y : Block) : gf128mul x y = gf128mul y x := by
  simp only [gf128mul_eq_ofBits, gf128mulBits_comm x.bits]

theorem xor_gf128mul (x y z : Block) : gf128mul (x.xor y) z = (gf128mul x z).xor (gf128mul y z) := by
  simp only [gf128mul_eq_ofBits, Block.bits_xor, xor_gf128mulBits, Block.ofBits_xor]

theorem zero_gf128mul (y : Block) : gf128mul Block.zero y = Block.zero := by
  rw [gf128mul_eq_ofBits, Block.bits_zero, gf128mulBits_eq_shiftAdd,
    (xorLinear_shiftAdd xorLinear_gf128Shift _).map_zero]
  decide

theorem one_gf128mul (y : Block) : gf128mul ⟨0x80, 0, 0, 0, 0, 0, 0, 0, 0, 0, 0, 0, 0, 0, 0, 0⟩ y = y := by
  have hone : Block.bits ⟨0x80, 0, 0, 0, 0, 0, 0, 0, 0, 0, 0, 0, 0, 0, 0, 0⟩ = BitVec.twoPow 128 127 := by decide
  rw [gf128mul_eq_ofBits, hone, twoPow_gf128mulBits, Block.ofBits_bits]

/-- Settles O57: the multiplier of R167 is linear in its first operand, and commutes because `80 00..00` is its
identity. -/
theorem gf128mulIsBilinearWithIdentity : Obligations.Gf128mulIsBilinearWithIdentity := fun x y z =>
  ⟨xor_gf128mul x y z, by simp only [gf128mul_comm x, xor_gf128mul], by rw [gf128mul_comm, zero_gf128mul],
    zero_gf128mul y, one_gf128mul y, by rw [gf128mul_comm, one_gf128mul]⟩

end Sys2Proof

/-! # The round transforms and their inverses -/

namespace Sys2Proof

theorem rsbox_sbox (i : Byte) : rsbox (sbox i) = i := by
  revert i
  decide +kernel

theorem sbox_rsbox (i : Byte) : sbox (rsbox i) = i := by
  revert i
  decide +kernel

theorem invSubBytes_subBytes (s : Block) : invSubBytes (subBytes s) = s := by
  simp [invSubBytes, subBytes, Block.map, rsbox_sbox]

theorem subBytes_invSubBytes (s : Block) : subBytes (invSubBytes s) = s := by
  simp [invSubBytes, subBytes, Block.map, sbox_rsbox]

/-- The product of two columns as polynomials over GF(2^8) modulo `x^4 + 1`. -/
def colMul (c a : KeyWord) : KeyWord :=
  ⟨gmul c.t0 a.t0 ^^^ gmul c.t3 a.t1 ^^^ gmul c.t2 a.t2 ^^^ gmul c.t1 a.t3,
   gmul c.t1 a.t0 ^^^ gmul c.t0 a.t1 ^^^ gmul c.t3 a.t2 ^^^ gmul c.t2 a.t3,
   gmul c.t2 a.t0 ^^^ gmul c.t1 a.t1 ^^^ gmul c.t0 a.t2 ^^^ gmul c.t3 a.t3,
   gmul c.t3 a.t0 ^^^ gmul c.t2 a.t1 ^^^ gmul c.t1 a.t2 ^^^ gmul c.t0 a.t3⟩

theorem mixColumn_eq_colMul (a : KeyWord) : mixColumn a = colMul ⟨2, 1, 1, 3⟩ a := by
  simp [mixColumn, colMul]

theorem invMixColumn_eq_colMul (a : KeyWord) : invMixColumn a = colMul ⟨0x0E, 0x09, 0x0D, 0x0B⟩ a := rfl

theorem colMul_assoc (c d a : KeyWord) : colMul (colMul c d) a = colMul c (colMul d a) := by
  simp only [colMul, xor_gmul, gmul_xor, gmul_assoc, KeyWord.mk.injEq]
  refine ⟨?_, ?_, ?_, ?_⟩ <;> ac_rfl

theorem one_colMul (a : KeyWord) : colMul ⟨1, 0, 0, 0⟩ a = a := by
  simp [colMul]

theorem invMixColumn_mixColumn (a : KeyWord) : invMixColumn (mixColumn a) = a := by
  have hinv : colMul ⟨0x0E, 0x09, 0x0D, 0x0B⟩ ⟨2, 1, 1, 3⟩ = ⟨1, 0, 0, 0⟩ := by decide
  rw [mixColumn_eq_colMul, invMixColumn_eq_colMul, ← colMul_assoc, hinv, one_colMul]

theorem mixColumn_invMixColumn (a : KeyWord) : mixColumn (invMixColumn a) = a := by
  have hinv : colMul ⟨2, 1, 1, 3⟩ ⟨0x0E, 0x09, 0x0D, 0x0B⟩ = ⟨1, 0, 0, 0⟩ := by decide
  rw [mixColumn_eq_colMul, invMixColumn_eq_colMul, ← colMul_assoc, hinv, one_colMul]

theorem Block.ofColumns_column (s : Block) :
    Block.ofColumns (s.column 0) (s.column 1) (s.column 2) (s.column 3) = s := rfl

theorem mixColumns_ofColumns (u v w x : KeyWord) : mixColumns (Block.ofColumns u v w x) =
    Block.ofColumns (mixColumn u) (mixColumn v) (mixColumn w) (mixColumn x) := rfl

theorem invMixColumns_ofColumns (u v w x : KeyWord) : invMixColumns (Block.ofColumns u v w x) =
    Block.ofColumns (invMixColumn u) (invMixColumn v) (invMixColumn w) (invMixColumn x) := rfl

theorem invMixColumns_mixColumns (s : Block) : invMixColumns (mixColumns s) = s := by
  simp only [mixColumns, invMixColumns_ofColumns, invMixColumn_mixColumn, Block.ofColumns_column]

theorem mixColumns_invMixColumns (s : Block) : mixColumns (invMixColumns s) = s := by
  simp only [invMixColumns, mixColumns_ofColumns, mixColumn_invMixColumn, Block.ofColumns_column]

/-- Settles O54: MixColumns and its inverse are products by mutually inverse columns. -/
theorem inverseTransformsUndoTransforms : Obligations.InverseTransformsUndoTransforms :=
  ⟨fun i => ⟨rsbox_sbox i, sbox_rsbox i⟩, fun s k =>
    ⟨invSubBytes_subBytes s, subBytes_invSubBytes s, invShiftRows_shiftRows s, shiftRows_invShiftRows s,
      invMixColumns_mixColumns s, mixColumns_invMixColumns s, addRoundKey_addRoundKey s k⟩⟩

end Sys2Proof

/-! # The doubling of the tweak -/

namespace Sys2Proof

theorem shiftIn_zero (t : Byte) : shiftIn 0 t = t <<< 1 := by
  simp [shiftIn]

theorem shiftIn_toNat (c t : Byte) : (shiftIn c t).toNat = 2 * t.toNat % 256 + c.toNat / 128 := by
  have hor : (t.toNat % 128) <<< 1 + c.toNat / 128 = (t.toNat % 128) <<< 1 ||| c.toNat / 128 :=
    Nat.shiftLeft_add_eq_or_of_lt (by omega) _
  have hshift : t.toNat <<< 1 % 2 ^ 8 = (t.toNat % 128) <<< 1 := by omega
  rw [shiftIn, BitVec.toNat_or, BitVec.toNat_shiftLeft, BitVec.toNat_ushiftRight, hshift,
    Nat.shiftRight_eq_div_pow, ← hor]
  omega

/-- Each byte takes in the bit shifted out of the byte before it, so the number doubles, up to the last bit out. -/
theorem leNat_zipWith_shiftIn (c : Byte) (l : List Byte) :
    leNat (List.zipWith shiftIn (c :: l) l) + 256 ^ l.length * ((l.getLastD c).toNat / 128) =
      2 * leNat l + c.toNat / 128 := by
  induction l generalizing c with
  | nil => simp [leNat]
  | cons t l ih =>
    have h := ih t
    rw [List.zipWith_cons_cons, leNat_cons, leNat_cons, shiftIn_toNat, List.length_cons, Nat.pow_succ', Nat.mul_assoc,
      List.getLastD_cons]
    omega

/-- The doubling before it is reduced: every byte shifted left by one bit across the bytes. -/
def xtsShift (t : Block) : List Byte := List.zipWith shiftIn (0 :: t.toBytes) t.toBytes

theorem leNat_xtsDouble (t : Block) : leNat (xtsDouble t).toBytes =
    if t.b15.getLsbD 7 then leNat (xtsShift t) ^^^ 0x87 else leNat (xtsShift t) := by
  have hshift : xtsShift t = t.b0 <<< 1 :: List.zipWith shiftIn t.toBytes t.toBytes.tail :=
    congrArg (· :: _) (shiftIn_zero t.b0)
  have hbytes : (xtsDouble t).toBytes = (if t.b15.getLsbD 7 then t.b0 <<< 1 ^^^ 0x87#8 else t.b0 <<< 1) ::
    List.zipWith shiftIn t.toBytes t.toBytes.tail := rfl
  rw [hbytes, hshift]
  split
  · exact leNat_xor_cons ..
  · rfl

theorem leNat_xtsShift (t : Block) :
    leNat (xtsShift t) + 256 ^ 16 * (t.b15.toNat / 128) = 2 * leNat t.toBytes := by
  have hlast : t.toBytes.getLastD 0 = t.b15 := rfl
  have h := leNat_zipWith_shiftIn 0 t.toBytes
  rwa [hlast, Block.toBytes_length, show (0 : Byte).toNat / 128 = 0 from rfl, Nat.add_zero] at h

theorem xtsShift_lt (t : Block) : leNat (xtsShift t) < 256 ^ 16 := leNat_lt (xtsShift t)

theorem getLsbD_seven_iff (b : Byte) : b.getLsbD 7 = true ↔ 128 ≤ b.toNat := by
  rw [← decide_eq_true_iff (p := 128 ≤ b.toNat)]
  exact Bool.eq_iff_iff.1 (BitVec.msb_eq_decide b)

/-- Settles O58: the bit shifted out of byte 15 is 1 just when the number is 2^127 or more. -/
theorem xtsDoubleDoublesTheTweak : Obligations.XtsDoubleDoublesTheTweak := by
  intro t
  have hshift := leNat_xtsShift t
  have hlt := xtsShift_lt t
  have hnum : leNat t.toBytes < 256 ^ 16 := leNat_lt t.toBytes
  have hb15 := t.b15.isLt
  simp only [leNat_xtsDouble, getLsbD_seven_iff]
  by_cases hcarry : 128 ≤ t.b15.toNat
  · have hge : 2 ^ 127 ≤ leNat t.toBytes := by omega
    have hval : leNat (xtsShift t) = 2 * leNat t.toBytes - 2 ^ 128 := by omega
    rw [if_pos hcarry, if_pos hge, hval]
  · have hless : ¬ 2 ^ 127 ≤ leNat t.toBytes := by omega
    have hval : leNat (xtsShift t) = 2 * leNat t.toBytes := by omega
    rw [if_neg hcarry, if_neg hless, hval]

end Sys2Proof

/-! # The row and column transforms, cell by cell -/

namespace Sys2Proof

/-- Byte `i` of a column, the cell of row `i` (R200). -/
def KeyWord.cell (a : KeyWord) (i : Nat) : Byte := [a.t0, a.t1, a.t2, a.t3].getD i 0

theorem Block.column_cell (s : Block) {i : Nat} (hi : i < 4) (c : Nat) : (s.column c).cell i = s.cell i c := by
  interval_cases i <;> rfl

theorem mixColumns_column (s : Block) {c : Nat} (hc : c < 4) :
    (mixColumns s).column c = mixColumn (s.column c) := by
  interval_cases c <;> rfl

theorem invMixColumns_column (s : Block) {c : Nat} (hc : c < 4) :
    (invMixColumns s).column c = invMixColumn (s.column c) := by
  interval_cases c <;> rfl

/-- The product by a fixed column is the matrix form of R213: row `i` of the matrix is `M` rotated right by `i`, so
the fixed column is the matrix's first, `M` read backwards from `M[0]`. -/
theorem colMul_column_cell (m0 m1 m2 m3 : Byte) (s : Block) {i : Nat} (hi : i < 4) (c : Nat) :
    (colMul ⟨m0, m3, m2, m1⟩ (s.column c)).cell i = ((List.range 4).map fun k =>
      gmul ([m0, m1, m2, m3].getD ((k + 4 - i) % 4) 0) (s.cell k c)).foldl (· ^^^ ·) 0 := by
  interval_cases i <;> simp [colMul, KeyWord.cell, Block.column, List.range_succ]

/-- Settles O55: the row rotations are the cell laws of the two transforms, and each column transform is the product
by the first column of its matrix. -/
theorem rowAndColumnTransformsByCell : Obligations.RowAndColumnTransformsByCell := by
  intro s i c hi hc
  refine ⟨shiftRows_cell s ⟨i, hi⟩ ⟨c, hc⟩, invShiftRows_cell s ⟨i, hi⟩ ⟨c, hc⟩, ?_, ?_⟩
  · rw [← Block.column_cell _ hi, mixColumns_column s hc, mixColumn_eq_colMul, colMul_column_cell _ _ _ _ s hi]
  · rw [← Block.column_cell _ hi, invMixColumns_column s hc, invMixColumn_eq_colMul, colMul_column_cell _ _ _ _ s hi]

end Sys2Proof

/-! # The key schedule -/

namespace Sys2Proof

@[simp] theorem expandWords_length (nk n : Nat) (w : List KeyWord) : (expandWords nk n w).length = w.length + n := by
  induction n generalizing w with
  | zero => rfl
  | succ n ih => rw [expandWords, ih, List.length_append, List.length_singleton]; omega

/-- The loop only appends: the words already made stay. -/
theorem expandWords_getD_of_lt (nk n : Nat) {w : List KeyWord} {i : Nat} (hi : i < w.length) (d : KeyWord) :
    (expandWords nk n w).getD i d = w.getD i d := by
  induction n generalizing w with
  | zero => rfl
  | succ n ih =>
    rw [expandWords, ih (by rw [List.length_append]; omega), List.getD_append _ _ _ _ hi]

theorem expandWords_succ_getD_length (nk n : Nat) (w : List KeyWord) :
    (expandWords nk (n + 1) w).getD w.length KeyWord.zero = (w.getD (w.length - nk) KeyWord.zero).xor
      (scheduleWord nk w.length (w.getD (w.length - 1) KeyWord.zero)) := by
  rw [expandWords, expandWords_getD_of_lt _ _ (by simp), List.getD_append_right _ _ _ _ le_rfl, Nat.sub_self,
    List.getD_cons_zero]

/-- The recurrence of R221 on the finished list, for each word the loop made: what it
read is still in place. -/
theorem expandWords_getD {nk : Nat} (hnk : 0 < nk) (n : Nat) {w : List KeyWord} (hw : nk ≤ w.length) {i : Nat}
    (hi : w.length ≤ i) (hlt : i < w.length + n) :
    (expandWords nk n w).getD i KeyWord.zero = ((expandWords nk n w).getD (i - nk) KeyWord.zero).xor
      (scheduleWord nk i ((expandWords nk n w).getD (i - 1) KeyWord.zero)) := by
  induction n generalizing w with
  | zero => omega
  | succ n ih =>
    obtain rfl | hnext := hi.eq_or_lt
    · rw [expandWords_succ_getD_length, expandWords_getD_of_lt nk _ (i := w.length - nk) (by omega),
        expandWords_getD_of_lt nk _ (i := w.length - 1) (by omega)]
    · rw [expandWords]
      exact ih (by rw [List.length_append]; omega) (by rw [List.length_append]; exact hnext)
        (by rw [List.length_append, List.length_singleton]; omega)

theorem scheduleWords_length (key : List Byte) : (scheduleWords key).length = 4 * (key.length / 4 + 7) := by
  rw [scheduleWords, expandWords_length, List.length_map, List.length_range]
  omega

theorem scheduleWords_getD_of_lt (key : List Byte) {i : Nat} (hi : i < key.length / 4) :
    (scheduleWords key).getD i KeyWord.zero = keyWord key i := by
  rw [scheduleWords, expandWords_getD_of_lt _ _ (by simpa using hi)]
  simp [List.getD_eq_getElem?_getD, hi]

theorem scheduleWords_getD {key : List Byte} (hkey : 4 ≤ key.length) {i : Nat} (hi : key.length / 4 ≤ i)
    (hlt : i < 4 * (key.length / 4 + 7)) :
    (scheduleWords key).getD i KeyWord.zero = ((scheduleWords key).getD (i - key.length / 4) KeyWord.zero).xor
      (scheduleWord (key.length / 4) i ((scheduleWords key).getD (i - 1) KeyWord.zero)) := by
  have hlen : ((List.range (key.length / 4)).map (keyWord key)).length = key.length / 4 := by simp
  exact expandWords_getD (by omega) _ hlen.ge (by omega) (by omega)

/-- R221's word `t` with its rotation, S-box and round constant written out by bytes. -/
theorem scheduleWord_eq (nk i : Nat) (t : KeyWord) : scheduleWord nk i t =
    if i % nk = 0 then ⟨sbox t.t1 ^^^ rcon (i / nk - 1), sbox t.t2, sbox t.t3, sbox t.t0⟩
    else if 6 < nk ∧ i % nk = 4 then ⟨sbox t.t0, sbox t.t1, sbox t.t2, sbox t.t3⟩
    else t := by
  simp [scheduleWord, subWord, rotWord, KeyWord.xor]

theorem keyExpansion_length (key : List Byte) : (keyExpansion key).length = key.length / 4 + 7 := by
  simp [keyExpansion]

theorem roundKey_keyExpansion_column (key : List Byte) {r c : Nat} (hr : r < key.length / 4 + 7) (hc : c < 4) :
    (roundKey (keyExpansion key) r).column c = (scheduleWords key).getD (4 * r + c) KeyWord.zero := by
  have hround : roundKey (keyExpansion key) r =
      Block.ofColumns
        ((scheduleWords key).getD (4 * r) KeyWord.zero) ((scheduleWords key).getD (4 * r + 1) KeyWord.zero)
        ((scheduleWords key).getD (4 * r + 2) KeyWord.zero) ((scheduleWords key).getD (4 * r + 3) KeyWord.zero) := by
    simp [roundKey, keyExpansion, List.getD_eq_getElem?_getD, hr]
  rw [hround]
  interval_cases c <;> rfl

/-- Settles O52: the loop only appends, so each word it made is given by the words of the finished schedule. -/
theorem keyExpansionFollowsTheRecurrence : Obligations.KeyExpansionFollowsTheRecurrence := by
  intro key hkey
  refine ⟨_, _, rfl, rfl, scheduleWords_length key, fun _ => scheduleWords_getD_of_lt key,
    fun i hi hlt => ⟨_, rfl, ?_⟩, keyExpansion_length key, fun _ _ => roundKey_keyExpansion_column key⟩
  rw [scheduleWords_getD (by omega) hi hlt, scheduleWord_eq]

end Sys2Proof

/-! # NOP, the key commands, KS_READ, the engine and the single-block cipher -/

namespace Sys2Proof.Machine

/-! ## The checks and the end of a command -/

section
variable {ok : Bool} {code : ErrCode} {s : State} {k : Result}

theorem check_of_false (h : ok = false) : check ok code s k = .next (s.complete code) := by
  rw [h]
  rfl

theorem check_of_true (h : ok = true) : check ok code s k = k := by
  rw [h]
  rfl

end

/-- The end of the commands that give an output: the last check, then the string at DSTL (R48, R125). -/
theorem exists_check_writeOut {ok : Bool} {code : ErrCode} {s : State} (hok : ok = true) (hwf : Memory.wf s.dmem)
    (v : List Byte) : ∃ t, check ok code s (succeed (s.writeOut v)) = .next t ∧ outputs s t v :=
  ⟨_, check_of_true hok, outputs_writeOut s v hwf⟩

theorem srcBytes_getD (s : State) {i : Nat} (hi : i < s.count) : s.srcBytes.getD i 0 = s.dmemByte (s.srcAddr + i) :=
  memRead_getD s _ _ i hi

theorem auxBytes_getD (s : State) {i : Nat} (hi : i < s.count) : s.auxBytes.getD i 0 = s.dmemByte (s.auxAddr + i) :=
  memRead_getD s _ _ i hi

/-! ## The round key file -/

theorem roundKey_of_length_le {rk : List Block} {r : Nat} (hr : rk.length ≤ r) : roundKey rk r = Block.zero := by
  simp [roundKey, hr]

theorem roundKey_replicate_zero (n r : Nat) : roundKey (List.replicate n Block.zero) r = Block.zero := by
  simp [roundKey]

@[simp] theorem roundKeyFile_length (sched : List Block) : (roundKeyFile sched).length = 15 := by
  simp [roundKeyFile]

/-- The file holds every key of a schedule that fits into it, and reads zero past the schedule's end, as the schedule
does. -/
theorem roundKey_roundKeyFile {sched : List Block} (h : sched.length ≤ 15) (r : Nat) :
    roundKey (roundKeyFile sched) r = roundKey sched r := by
  rcases lt_or_ge r 15 with hr | hr
  · simp [roundKey, roundKeyFile, hr]
  · rw [roundKey_of_length_le (by simpa using hr), roundKey_of_length_le (h.trans hr)]

/-! ## The key sizes -/

theorem KeySize.ofBytes?_bytes (size : KeySize) : KeySize.ofBytes? size.bytes = some size := by cases size <;> rfl

theorem KeySize.exists_eq_bytes_iff {n : Nat} : (∃ size : KeySize, n = size.bytes) ↔ n = 16 ∨ n = 24 ∨ n = 32 := by
  constructor
  · rintro ⟨size, rfl⟩
    cases size <;> decide
  · rintro (h | h | h)
    exacts [⟨.bytes16, h⟩, ⟨.bytes24, h⟩, ⟨.bytes32, h⟩]

theorem KeySize.ofBytes?_eq_none {n : Nat} (h : ¬(n = 16 ∨ n = 24 ∨ n = 32)) : KeySize.ofBytes? n = none :=
  Option.eq_none_iff_forall_ne_some.2 fun size hsize =>
    h (KeySize.exists_eq_bytes_iff.1 ⟨size, KeySize.eq_bytes_of_ofBytes? hsize⟩)

theorem KeySize.code_toNat (size : KeySize) : size.code.toNat = (size.bytes - 16) / 8 := by cases size <;> rfl

/-- `Nr = Nk + 6` (R220) is the `10 + 2*KSZ` of R39. -/
theorem KeySize.rounds_eq (size : KeySize) : size.rounds = size.bytes / 4 + 6 := by cases size <;> rfl

theorem KeySize.rounds_lt (size : KeySize) : size.rounds < 15 := by cases size <;> decide

theorem nrField_toNat {s : State} (h : s.keyv = true) : s.nrField.toNat = s.ksz.rounds := by
  rw [State.nrField, if_pos h, BitVec.toNat_ofNat, Nat.mod_eq_of_lt (s.ksz.rounds_lt.trans (by decide))]

/-! ## NOP and the key commands -/

/-- Settles O27: the decoder inverts the encoder, and the word of NOP is 0. -/
theorem nopOnlyCompletes : Obligations.NopOnlyCompletes := by
  refine ⟨fun w => ?_, fun s => ⟨_, rfl, rfl, by simp [State.irq]⟩⟩
  have hword : encode .nop = 0 := by decide
  rw [decode_eq_ok_iff, hword]
  exact ⟨fun h => h.1.symm, fun h => ⟨h.symm, rfl⟩⟩

theorem execKeyLoad_badLength {s : State} (h : KeySize.ofBytes? s.count = none) :
    execKeyLoad s = .next (s.complete .badLength) := by
  rw [execKeyLoad, h]
  rfl

theorem execKeyLoad_of_size {s : State} {size : KeySize} (h : KeySize.ofBytes? s.count = some size) :
    execKeyLoad s = check (s.srcValid s.count) .badAddress s (succeed (s.loadKey size s.srcBytes)) := by
  rw [execKeyLoad, h]

/-- The schedule has `Nr + 1` round keys (R221). -/
theorem keyExpansion_length_of_size {size : KeySize} {key : List Byte} (hkey : key.length = size.bytes) :
    (keyExpansion key).length = size.rounds + 1 := by
  rw [keyExpansion_length, hkey, size.rounds_eq]

/-- Settles O28: a legal length is that of a key size, from which Nr and KSZ follow. -/
theorem keyLoadExpandsTheKey : Obligations.KeyLoadExpandsTheKey := by
  refine ⟨by decide, fun s => ⟨fun h => execKeyLoad_badLength (KeySize.ofBytes?_eq_none (by omega)), fun h => ?_⟩⟩
  obtain ⟨size, hsize⟩ := KeySize.exists_eq_bytes_iff.2 h
  have hexec : exec .keyLoad s = check (s.srcValid s.count) .badAddress s (succeed (s.loadKey size s.srcBytes)) :=
    execKeyLoad_of_size (hsize ▸ size.ofBytes?_bytes)
  have hlen : (keyExpansion s.srcBytes).length = size.rounds + 1 :=
    keyExpansion_length_of_size ((srcBytes_length s).trans hsize)
  have hrk (r : Nat) : roundKey (s.loadKey size s.srcBytes).rk r = roundKey (keyExpansion s.srcBytes) r :=
    roundKey_roundKeyFile (hlen.trans_le size.rounds_lt) r
  rw [hexec, hsize, ← size.code_toNat, ← size.rounds_eq]
  exact ⟨check_of_false, fun hv => ⟨_, check_of_true hv, ⟨rfl, rfl, rfl⟩, rfl, rfl, nrField_toNat rfl,
    roundKeyFile_length _, fun r _ => hrk r, fun r hr _ => (hrk r).trans (roundKey_of_length_le (hlen.trans_le hr)),
    rfl⟩⟩

/-- Settles O29: every register of the file is a register of zeros. -/
theorem keyClearErasesTheRoundKeys : Obligations.KeyClearErasesTheRoundKeys :=
  ⟨by decide, fun _ => ⟨_, rfl, ⟨rfl, rfl, rfl⟩, rfl, fun r _ => roundKey_replicate_zero 15 r, rfl, rfl, rfl, rfl⟩⟩

/-! ## KS_READ -/

/-- Settles O30: the three checks of R254 in order, then the round key at DSTL. -/
theorem ksReadWritesTheRoundKey : Obligations.KsReadWritesTheRoundKey := by
  refine ⟨by decide, fun idx s hwf => ⟨check_keyv, fun hk hi => ?_, fun hk hi => ?_⟩⟩
  · exact (check_of_true hk).trans (check_of_false (by simpa using hi))
  · have hexec : exec (.ksRead idx) s =
        check (s.dstValid 16) .badAddress s (succeed (s.writeOut (roundKey s.rk idx.toNat).toBytes)) :=
      (check_of_true hk).trans (check_of_true (by simpa using hi))
    rw [hexec]
    exact ⟨check_of_false, fun hd => exists_check_writeOut hd hwf _⟩

/-! ## The engine -/

/-- Settles O32: the operands are read before the output is written, and the products taken byte by byte. -/
theorem gf8MulWritesTheProducts : Obligations.Gf8MulWritesTheProducts := by
  refine ⟨by decide, fun s hwf => ⟨fun h => check_of_false ?_, fun hs ha hd => ?_⟩⟩
  · rwa [Bool.and_eq_false_iff, Bool.and_eq_false_iff, or_assoc]
  · obtain ⟨t, ht, hout⟩ := exists_check_writeOut (Bool.and_eq_true_iff.2 ⟨Bool.and_eq_true_iff.2 ⟨hs, ha⟩, hd⟩)
      hwf (List.zipWith gmul s.srcBytes s.auxBytes)
    refine ⟨t, _, ht, hout, by simp, fun i hi => ?_⟩
    rw [← srcBytes_getD s hi, ← auxBytes_getD s hi]
    simp [List.getD_eq_getElem?_getD, hi]

theorem mapBytes_badAddress (f : Byte → Byte) {s : State}
    (h : s.srcValid s.count = false ∨ s.dstValid s.count = false) : mapBytes f s = .next (s.complete .badAddress) :=
  check_of_false (Bool.and_eq_false_iff.2 h)

theorem mapBytes_outputs (f : Byte → Byte) {s : State} (hwf : Memory.wf s.dmem) (hs : s.srcValid s.count = true)
    (hd : s.dstValid s.count = true) :
    ∃ t v, mapBytes f s = .next t ∧ outputs s t v ∧ v.length = s.count ∧
      ∀ k, k < s.count → v.getD k 0 = f (s.dmemByte (s.srcAddr + k)) := by
  obtain ⟨t, ht, hout⟩ := exists_check_writeOut (Bool.and_eq_true_iff.2 ⟨hs, hd⟩) hwf (s.srcBytes.map f)
  refine ⟨t, _, ht, hout, by simp, fun k hk => ?_⟩
  rw [← srcBytes_getD s hk]
  simp [List.getD_eq_getElem?_getD, hk]

/-- Settles O33: the two commands are one map over the bytes, with a table each. -/
theorem sboxCommandsMapTheBytes : Obligations.SboxCommandsMapTheBytes := by
  refine ⟨by decide, by decide, fun s i f hif hwf => ?_⟩
  have hexec : exec i s = mapBytes f s := by rcases hif with ⟨rfl, rfl⟩ | ⟨rfl, rfl⟩ <;> rfl
  rw [hexec]
  exact ⟨mapBytes_badAddress f, mapBytes_outputs f hwf⟩

/-- Settles O34: the one check of the three ranges, then the product of the two blocks at DSTL. -/
theorem gf128MulWritesTheProduct : Obligations.Gf128MulWritesTheProduct := by
  refine ⟨by decide, fun s hwf => ⟨fun h => check_of_false ?_, fun hs ha hd => ?_⟩⟩
  · rwa [Bool.and_eq_false_iff, Bool.and_eq_false_iff, or_assoc]
  · exact exists_check_writeOut (Bool.and_eq_true_iff.2 ⟨Bool.and_eq_true_iff.2 ⟨hs, ha⟩, hd⟩) hwf _

/-! ## The single-block cipher -/

theorem mapBlock_badLength (f : Block → Block) {s : State} (hk : s.keyv = true) (hn : s.count ≠ 16) :
    mapBlock f s = .next (s.complete .badLength) :=
  (check_of_true hk).trans (check_of_false (by simpa using hn))

/-- With a key and 16 bytes, the two ranges are left to check (R270). -/
theorem mapBlock_eq_check (f : Block → Block) {s : State} (hk : s.keyv = true) (hn : s.count = 16) :
    mapBlock f s =
      check (s.srcValid 16 && s.dstValid 16) .badAddress s (succeed (s.writeOut (f s.srcBlock).toBytes)) :=
  (check_of_true hk).trans (check_of_true (by simpa using hn))

/-- Settles O35: the two commands are one map of a block, with a direction of the cipher each. -/
theorem blkCommandsCipherOneBlock : Obligations.BlkCommandsCipherOneBlock := by
  refine ⟨by decide, by decide, fun s i f hif hwf => ?_⟩
  have hexec : exec i s = mapBlock f s := by rcases hif with ⟨rfl, rfl⟩ | ⟨rfl, rfl⟩ <;> rfl
  rw [hexec]
  refine ⟨check_keyv, mapBlock_badLength f, fun hk hn => ?_⟩
  rw [mapBlock_eq_check f hk hn]
  exact ⟨fun h => check_of_false (Bool.and_eq_false_iff.2 h),
    fun hs hd => exists_check_writeOut (Bool.and_eq_true_iff.2 ⟨hs, hd⟩) hwf _⟩

end Sys2Proof.Machine

/-! # Padding -/

namespace Sys2Proof.Machine

theorem padCount_bounds (n : Nat) : 1 ≤ padCount n ∧ padCount n ≤ 16 := by
  simp only [padCount]
  omega

/-- What an encrypting block mode works on is whole blocks, once BAD_LENGTH is ruled out (R303). -/
theorem paddedLength_mod {p : Pad} {n : Nat} (h : p = .noPad → n % 16 = 0) : paddedLength p n % 16 = 0 := by
  cases p with
  | noPad => exact h rfl
  | pkcs7 =>
    simp only [paddedLength, padCount]
    omega

theorem pad1_length (d : List Byte) : (pad1 d).length = d.length + padCount d.length := padBytes_length .pkcs7 d

theorem pad1_length_mod (d : List Byte) : (pad1 d).length % 16 = 0 := by
  rw [pad1_length]
  exact paddedLength_mod (p := .pkcs7) nofun

/-- Every byte from the end of the string on in `pad1(d)` is the count of the bytes added (R301). -/
theorem pad1_getD {d : List Byte} {i : Nat} (hi : d.length ≤ i) (hlt : i < (pad1 d).length) :
    ((pad1 d).getD i 0).toNat = padCount d.length := by
  obtain ⟨-, hle⟩ := padCount_bounds d.length
  rw [pad1_length] at hlt
  have hk : i - d.length < padCount d.length := by omega
  rw [pad1, List.getD_append_right _ _ _ _ hi, List.getD_replicate _ hk, BitVec.toNat_ofNat,
    Nat.mod_eq_of_lt (by omega)]

theorem all_drop_iff (d : List Byte) (n p : Nat) :
    (d.drop n).all (fun x => x.toNat == p) = true ↔ ∀ i, n ≤ i → i < d.length → (d.getD i 0).toNat = p := by
  simp only [List.all_eq_true, beq_iff_eq, List.forall_mem_iff_getElem, List.length_drop, List.getElem_drop]
  constructor
  · intro h i hn hi
    obtain ⟨k, rfl⟩ := Nat.exists_eq_add_of_le hn
    simpa [List.getD_eq_getElem?_getD, hi] using h k (by omega)
  · intro h k hk
    simpa [List.getD_eq_getElem?_getD, show n + k < d.length by omega] using h (n + k) (by omega) (by omega)

theorem unpad1_partialBlock {d : List Byte} (h : d.length % 16 ≠ 0) : unpad1 d = .error .padBadData := if_pos h

theorem unpad1_nil : unpad1 [] = .error .padBadPadding := rfl

section
variable {d : List Byte} {p : Nat} (hmod : d.length % 16 = 0) (hd : d ≠ [])
  (hp : p = (d.getD (d.length - 1) 0).toNat)
include hmod hd hp

/-- R302 on whole blocks, by the count `p` in the last byte. -/
theorem unpad1_eq_ite : unpad1 d =
    if ¬(1 ≤ p ∧ p ≤ 16) then .error .padBadPadding
    else if (d.drop (d.length - p)).all (fun x => x.toNat == p) then .ok (d.take (d.length - p))
    else .error .padBadPadding := by
  have hlen : d.length ≠ 0 := mt List.length_eq_zero_iff.1 hd
  rw [unpad1, if_neg (not_not.2 hmod), if_neg hlen, ← hp]

theorem unpad1_badCount (h : p = 0 ∨ 16 < p) : unpad1 d = .error .padBadPadding := by
  rw [unpad1_eq_ite hmod hd hp, if_pos (by omega)]

theorem unpad1_badByte (h1 : 1 ≤ p) (h16 : p ≤ 16)
    (h : ∃ i, d.length - p ≤ i ∧ i < d.length ∧ (d.getD i 0).toNat ≠ p) : unpad1 d = .error .padBadPadding := by
  obtain ⟨i, hlo, hi, hne⟩ := h
  rw [unpad1_eq_ite hmod hd hp, if_neg (not_not.2 ⟨h1, h16⟩), if_neg]
  exact fun hall => hne ((all_drop_iff ..).1 hall i hlo hi)

theorem unpad1_ok (h1 : 1 ≤ p) (h16 : p ≤ 16)
    (h : ∀ i, d.length - p ≤ i → i < d.length → (d.getD i 0).toNat = p) :
    unpad1 d = .ok (d.take (d.length - p)) := by
  rw [unpad1_eq_ite hmod hd hp, if_neg (not_not.2 ⟨h1, h16⟩), if_pos ((all_drop_iff ..).2 h)]

end

theorem unpad1_pad1 (d : List Byte) : unpad1 (pad1 d) = .ok d := by
  obtain ⟨h1, h16⟩ := padCount_bounds d.length
  have hlen := pad1_length d
  have hend : (pad1 d).length - padCount d.length = d.length := by omega
  have hne : pad1 d ≠ [] := List.ne_nil_of_length_pos (by omega)
  have hlast := pad1_getD (d := d) (i := (pad1 d).length - 1) (by omega) (by omega)
  rw [unpad1_ok (pad1_length_mod d) hne hlast.symm h1 h16 (fun i hi => pad1_getD (by omega)), hend, pad1,
    List.take_left]

theorem unpadBytes_padBytes (p : Pad) (d : List Byte) : unpadBytes p (padBytes p d) = .ok d := by
  cases p with
  | noPad => rfl
  | pkcs7 => exact unpad1_pad1 d

/-- Settles O60: the outcomes of `unpad1` by the count in the last byte; on `pad1(d)` that count and the bytes it
covers are the padding. -/
theorem unpadReversesPad : Obligations.UnpadReversesPad := by
  refine ⟨fun _ => ⟨rfl, rfl, rfl, rfl⟩, fun d => ?_, fun q d => ⟨unpadBytes_padBytes q d, padBytes_length q d⟩,
    fun d => ⟨unpad1_partialBlock, ?_, fun hmod hd => ?_⟩⟩
  · obtain ⟨h1, h16⟩ := padCount_bounds d.length
    exact ⟨_, rfl, h1, h16, rfl, pad1_length_mod d⟩
  · rintro rfl
    exact unpad1_nil
  · exact ⟨_, rfl, unpad1_badCount hmod hd rfl,
      fun h1 h16 => ⟨unpad1_badByte hmod hd rfl h1 h16, unpad1_ok hmod hd rfl h1 h16⟩⟩

end Sys2Proof.Machine

/-! # The block modes -/

namespace Sys2Proof.Machine

/-! ## The blocks of a string -/

/-- Block `j` of joined blocks, whatever follows them. -/
theorem blockOf_bytesOf_append {bs : List Block} (l : List Byte) {j : Nat} (hj : j < bs.length) :
    blockOf (bytesOf bs ++ l) j = bs.getD j Block.zero := by
  induction bs generalizing j with
  | nil => cases hj
  | cons b bs ih =>
    rw [bytesOf_cons, List.append_assoc]
    cases j with
    | zero => rfl
    | succ j => exact ih (Nat.lt_of_succ_lt_succ hj)

theorem blockOf_bytesOf {bs : List Block} {j : Nat} (hj : j < bs.length) :
    blockOf (bytesOf bs) j = bs.getD j Block.zero := by
  simpa using blockOf_bytesOf_append [] hj

theorem blocksOf_getD {d : List Byte} {j : Nat} (hj : j < (blocksOf d).length) :
    (blocksOf d).getD j Block.zero = blockOf d j := by
  rw [blocksOf_length] at hj
  simp [blocksOf, blockOf, hj]

/-- A block that stands at block `n` of a string. -/
theorem blockOf_append_toBytes {l : List Byte} {n : Nat} (hl : l.length = 16 * n) (b : Block) (r : List Byte) :
    blockOf (l ++ b.toBytes ++ r) n = b := by
  rw [blockOf, List.append_assoc, ← hl, List.drop_left, Block.ofBytes_append]

theorem length_bytesOf_of_mod {bs : List Block} {d : List Byte} (hbs : bs.length = (blocksOf d).length)
    (hd : d.length % 16 = 0) : (bytesOf bs).length = d.length := by
  rw [bytesOf_length, hbs, blocksOf_length]
  omega

/-! ## The loops of CBC and XEX, block by block -/

/-- Block `j` of R321 is chained to block `j` of the chaining value followed by the output. -/
theorem cbcEncrypt_getD (enc : Block → Block) (cv : Block) {ps : List Block} {j : Nat} (hj : j < ps.length) :
    (cbcEncrypt enc cv ps).1.getD j Block.zero =
      enc ((ps.getD j Block.zero).xor ((cv :: (cbcEncrypt enc cv ps).1).getD j Block.zero)) := by
  induction ps generalizing cv j with
  | nil => cases hj
  | cons p ps ih =>
    cases j with
    | zero => rfl
    | succ j => exact ih (enc (p.xor cv)) (Nat.lt_of_succ_lt_succ hj)

theorem cbcEncrypt_snd (enc : Block → Block) (cv : Block) (ps : List Block) :
    (cbcEncrypt enc cv ps).2 = (cv :: (cbcEncrypt enc cv ps).1).getD ps.length Block.zero := by
  induction ps generalizing cv with
  | nil => rfl
  | cons p ps ih => exact ih (enc (p.xor cv))

/-- Block `j` of R322 is unchained from block `j` of the chaining value followed by the input. -/
theorem cbcDecrypt_getD (dec : Block → Block) (cv : Block) {cs : List Block} {j : Nat} (hj : j < cs.length) :
    (cbcDecrypt dec cv cs).1.getD j Block.zero =
      (dec (cs.getD j Block.zero)).xor ((cv :: cs).getD j Block.zero) := by
  induction cs generalizing cv j with
  | nil => cases hj
  | cons c cs ih =>
    cases j with
    | zero => rfl
    | succ j => exact ih c (Nat.lt_of_succ_lt_succ hj)

theorem cbcDecrypt_snd (dec : Block → Block) (cv : Block) (cs : List Block) :
    (cbcDecrypt dec cv cs).2 = (cv :: cs).getD cs.length Block.zero := by
  induction cs generalizing cv with
  | nil => rfl
  | cons c cs ih => exact ih c

theorem xexBlocks_getD (f : Block → Block) (t : Block) {bs : List Block} {j : Nat} (hj : j < bs.length) :
    (xexBlocks f t bs).1.getD j Block.zero = xexBlock f (bs.getD j Block.zero) (xtsDoubleIter j t) := by
  induction bs generalizing t j with
  | nil => cases hj
  | cons b bs ih =>
    cases j with
    | zero => rfl
    | succ j => exact ih (xtsDouble t) (Nat.lt_of_succ_lt_succ hj)

theorem xexBlocks_snd (f : Block → Block) (t : Block) (bs : List Block) :
    (xexBlocks f t bs).2 = xtsDoubleIter bs.length t := by
  induction bs generalizing t with
  | nil => rfl
  | cons b bs ih => exact ih (xtsDouble t)

/-! ## The same on byte strings -/

theorem lt_length_of_lt_bytesOf {bs : List Block} {j : Nat} (hj : 16 * j < (bytesOf bs).length) : j < bs.length := by
  rw [bytesOf_length] at hj
  omega

/-- The block before block `j` of a string of whole blocks, or the chaining value before its first. -/
theorem cons_getD_of_blockOf {cv : Block} {bs : List Block} {d : List Byte}
    (hbs : ∀ j, j < bs.length → bs.getD j Block.zero = blockOf d j) {j : Nat} (hj : j ≤ bs.length) :
    (cv :: bs).getD j Block.zero = if j = 0 then cv else blockOf d (j - 1) := by
  cases j with
  | zero => rfl
  | succ j => exact hbs j hj

theorem blockOf_mapBlocks (f : Block → Block) (d : List Byte) {j : Nat}
    (hj : 16 * j < (bytesOf ((blocksOf d).map f)).length) :
    blockOf (bytesOf ((blocksOf d).map f)) j = f (blockOf d j) := by
  have hlt := lt_length_of_lt_bytesOf hj
  have hlt' := hlt.trans_eq (List.length_map f)
  rw [blockOf_bytesOf hlt, ← blocksOf_getD hlt', List.getD_eq_getElem _ _ hlt, List.getD_eq_getElem _ _ hlt',
    List.getElem_map]

theorem blockOf_cbcEncrypt (enc : Block → Block) (cv : Block) (d : List Byte) {out : List Byte}
    (hout : out = bytesOf (cbcEncrypt enc cv (blocksOf d)).1) {j : Nat} (hj : 16 * j < out.length) :
    blockOf out j = enc ((blockOf d j).xor (if j = 0 then cv else blockOf out (j - 1))) := by
  subst hout
  have hlt := lt_length_of_lt_bytesOf hj
  have hlt' := hlt.trans_eq (cbcEncrypt_length ..)
  rw [blockOf_bytesOf hlt, cbcEncrypt_getD enc cv hlt', blocksOf_getD hlt',
    cons_getD_of_blockOf (fun _ h => (blockOf_bytesOf h).symm) hlt.le]

/-- The CV that CBC_ENC leaves is the last output block, or the CV before where there is no output. -/
theorem cbcEncrypt_snd_eq_ite (enc : Block → Block) (cv : Block) (ps : List Block) {out : List Byte}
    (hout : out = bytesOf (cbcEncrypt enc cv ps).1) :
    (cbcEncrypt enc cv ps).2 = if out.length = 0 then cv else blockOf out (out.length / 16 - 1) := by
  subst hout
  have hlen := cbcEncrypt_length enc cv ps
  rw [cbcEncrypt_snd, cons_getD_of_blockOf (fun _ h => (blockOf_bytesOf h).symm) hlen.ge, bytesOf_length, hlen]
  simp

theorem blockOf_cbcDecrypt (dec : Block → Block) (cv : Block) (d : List Byte) {j : Nat}
    (hj : 16 * j < (bytesOf (cbcDecrypt dec cv (blocksOf d)).1).length) :
    blockOf (bytesOf (cbcDecrypt dec cv (blocksOf d)).1) j =
      (dec (blockOf d j)).xor (if j = 0 then cv else blockOf d (j - 1)) := by
  have hlt := lt_length_of_lt_bytesOf hj
  have hlt' := hlt.trans_eq (cbcDecrypt_length ..)
  rw [blockOf_bytesOf hlt, cbcDecrypt_getD dec cv hlt', blocksOf_getD hlt',
    cons_getD_of_blockOf (fun _ => blocksOf_getD) hlt'.le]

/-- The CV that CBC_DEC leaves is the last input block, or the CV before where there is no input. -/
theorem cbcDecrypt_snd_eq_ite (dec : Block → Block) (cv : Block) {d : List Byte} (hd : d.length % 16 = 0) :
    (cbcDecrypt dec cv (blocksOf d)).2 = if d.length = 0 then cv else blockOf d (d.length / 16 - 1) := by
  have hzero : d.length / 16 = 0 ↔ d.length = 0 := by omega
  rw [cbcDecrypt_snd, cons_getD_of_blockOf (fun _ => blocksOf_getD) le_rfl, blocksOf_length]
  simp only [hzero]

theorem blockOf_xexBlocks (f : Block → Block) (t : Block) (d : List Byte) {j : Nat}
    (hj : 16 * j < (bytesOf (xexBlocks f t (blocksOf d)).1).length) :
    blockOf (bytesOf (xexBlocks f t (blocksOf d)).1) j = xexBlock f (blockOf d j) (xtsDoubleIter j t) := by
  have hlt := lt_length_of_lt_bytesOf hj
  have hlt' := hlt.trans_eq (xexBlocks_length ..)
  rw [blockOf_bytesOf hlt, xexBlocks_getD f t hlt', blocksOf_getD hlt']

/-! ## The checks of the block modes -/

theorem withPad_field (p : Pad) (s : State) (k : Pad → Result) : withPad p.field s k = k p := by
  cases p with
  | noPad => rfl
  | pkcs7 => rfl

section
variable {p : Pad} {s : State} {k : List Byte → Result}

theorem encInput_badLength (hp : p = .noPad) (hn : s.count % 16 ≠ 0) :
    encInput p s k = .next (s.complete .badLength) := by
  subst hp
  exact check_of_false (by simpa using hn)

/-- With a legal length, the two ranges are left to check (R303). -/
theorem encInput_eq_check (hn : p = .noPad → s.count % 16 = 0) : encInput p s k =
    check (s.srcValid s.count && s.dstValid (paddedLength p s.count)) .badAddress s (k (padBytes p s.srcBytes)) := by
  refine check_of_true ?_
  cases p with
  | noPad => simpa using hn
  | pkcs7 => rfl

theorem decInput_badAddress (h : s.srcValid s.count = false ∨ s.dstValid s.count = false) :
    decInput s k = .next (s.complete .badAddress) := check_of_false (Bool.and_eq_false_iff.2 h)

/-- With valid ranges, the length is left to check (R304). -/
theorem decInput_eq_check (hs : s.srcValid s.count = true) (hd : s.dstValid s.count = true) :
    decInput s k = check (s.count % 16 == 0) .padBadData s (k s.srcBytes) :=
  check_of_true (Bool.and_eq_true_iff.2 ⟨hs, hd⟩)

end

section
variable {i : Instr} {p : Pad} {loaded : Bool} {s : State} {k : List Byte → Result}
  (hexec : exec i s = check s.keyv .noKey s (check loaded .badState s (encInput p s k)))
include hexec

theorem encryptingErrors_of_exec : encryptingErrors i p loaded s := by
  rw [encryptingErrors, hexec]
  refine ⟨check_keyv, fun hk hl => ?_, fun hk hl hp hn => ?_, fun hk hl hn hv => ?_⟩ <;> rw [check_of_true hk]
  · exact check_of_false hl
  · rw [check_of_true hl, encInput_badLength hp hn]
  · rw [check_of_true hl, encInput_eq_check hn, check_of_false (Bool.and_eq_false_iff.2 hv)]

theorem exec_of_encryptingReady (h : encryptingReady p loaded s) : exec i s = k (padBytes p s.srcBytes) := by
  obtain ⟨hk, hl, hn, hs, hd⟩ := h
  rw [hexec, check_of_true hk, check_of_true hl, encInput_eq_check hn, check_of_true (Bool.and_eq_true_iff.2 ⟨hs, hd⟩)]

end

section
variable {i : Instr} {loaded : Bool} {s : State} {k : List Byte → Result}
  (hexec : exec i s = check s.keyv .noKey s (check loaded .badState s (decInput s k)))
include hexec

theorem decryptingErrors_of_exec : decryptingErrors i loaded s := by
  rw [decryptingErrors, hexec]
  refine ⟨check_keyv, fun hk hl => ?_, fun hk hl hv => ?_, fun hk hl hs hd hn => ?_⟩ <;> rw [check_of_true hk]
  · exact check_of_false hl
  · rw [check_of_true hl, decInput_badAddress hv]
  · rw [check_of_true hl, decInput_eq_check hs hd, check_of_false (by simpa using hn)]

theorem exec_of_decryptingReady (h : decryptingReady loaded s) : exec i s = k s.srcBytes := by
  obtain ⟨hk, hl, hs, hd, hn⟩ := h
  rw [hexec, check_of_true hk, check_of_true hl, decInput_eq_check hs hd, check_of_true (by simpa using hn)]

end

/-- What the blocks of an encrypting command's input join to is as long as R303 has it. -/
theorem length_bytesOf_padBytes {p : Pad} {loaded : Bool} {s : State} (h : encryptingReady p loaded s)
    {bs : List Block} (hbs : bs.length = (blocksOf (padBytes p s.srcBytes)).length) :
    (bytesOf bs).length = paddedLength p s.count := by
  obtain ⟨-, -, hn, -, -⟩ := h
  have hlen : (padBytes p s.srcBytes).length = paddedLength p s.count := by rw [padBytes_length, srcBytes_length]
  rw [length_bytesOf_of_mod hbs (hlen ▸ paddedLength_mod hn), hlen]

theorem length_bytesOf_srcBytes {loaded : Bool} {s : State} (h : decryptingReady loaded s)
    {bs : List Block} (hbs : bs.length = (blocksOf s.srcBytes).length) : (bytesOf bs).length = s.count := by
  obtain ⟨-, -, -, -, hn⟩ := h
  have hlen := srcBytes_length s
  rw [length_bytesOf_of_mod hbs (hlen ▸ hn), hlen]

/-- The end of a decrypting command (R305). -/
theorem decryptsTo_of_exec {i : Instr} {p : Pad} {s u : State} {ps : List Byte} (hwf : Memory.wf u.dmem)
    (hexec : exec i s = decOutput p u ps) : decryptsTo i p s u ps := by
  refine ⟨fun d hd => ⟨(u.writeOut d).complete .ok, ?_, outputs_writeOut u d hwf⟩, fun e he => ?_⟩
  · rw [hexec, decOutput, hd]
    rfl
  · rw [hexec, decOutput, he]
    rfl

/-! ## ECB -/

/-- Settles O37: the map of the cipher over the blocks, at block `j`. -/
theorem ecbEncEncryptsEachBlock : Obligations.EcbEncEncryptsEachBlock := by
  refine ⟨by decide, by decide, fun p s hwf => ?_⟩
  have hexec : exec (.ecbEnc p.field) s = check s.keyv .noKey s (check true .badState s (encInput p s fun d =>
      succeed (s.writeOut (bytesOf ((blocksOf d).map s.encrypt))))) := withPad_field p s _
  refine ⟨encryptingErrors_of_exec hexec, fun h => ⟨_, _, exec_of_encryptingReady hexec h, outputs_writeOut s _ hwf,
    length_bytesOf_padBytes h (List.length_map _), fun j => blockOf_mapBlocks _ _⟩⟩

/-- Settles O38: the map of the inverse cipher over the blocks, at block `j`. -/
theorem ecbDecDecryptsEachBlock : Obligations.EcbDecDecryptsEachBlock := by
  refine ⟨by decide, by decide, fun p s hwf => ?_⟩
  have hexec : exec (.ecbDec p.field) s = check s.keyv .noKey s (check true .badState s (decInput s fun c =>
      decOutput p s (bytesOf ((blocksOf c).map s.decrypt)))) := withPad_field p s _
  refine ⟨decryptingErrors_of_exec hexec, fun h => ⟨_, length_bytesOf_srcBytes h (List.length_map _),
    fun j => blockOf_mapBlocks _ _, decryptsTo_of_exec hwf (exec_of_decryptingReady hexec h)⟩⟩

/-! ## CBC -/

/-- Settles O39: the loop of R321, at block `j` and at its end. -/
theorem cbcEncChainsTheBlocks : Obligations.CbcEncChainsTheBlocks := by
  refine ⟨by decide, by decide, fun p s hwf => ?_⟩
  have hexec : exec (.cbcEnc p.field) s = check s.keyv .noKey s (check s.cbc.cbcv .badState s (encInput p s fun d =>
      succeed ((s.setCv (cbcEncrypt s.encrypt s.cbc.cv (blocksOf d)).2).writeOut
        (bytesOf (cbcEncrypt s.encrypt s.cbc.cv (blocksOf d)).1)))) := withPad_field p s _
  refine ⟨encryptingErrors_of_exec hexec, fun h => ⟨_, _, exec_of_encryptingReady hexec h,
    outputs_writeOut (s.setCv _) _ hwf, length_bytesOf_padBytes h (cbcEncrypt_length ..),
    fun j => blockOf_cbcEncrypt _ _ _ rfl, cbcEncrypt_snd_eq_ite _ _ _ rfl⟩⟩

/-- Settles O40: the loop of R322, at block `j` and at its end. -/
theorem cbcDecUnchainsTheBlocks : Obligations.CbcDecUnchainsTheBlocks := by
  refine ⟨by decide, by decide, fun p s hwf => ?_⟩
  have hexec : exec (.cbcDec p.field) s = check s.keyv .noKey s (check s.cbc.cbcv .badState s (decInput s fun c =>
      decOutput p (s.setCv (cbcDecrypt s.decrypt s.cbc.cv (blocksOf c)).2)
        (bytesOf (cbcDecrypt s.decrypt s.cbc.cv (blocksOf c)).1))) := withPad_field p s _
  refine ⟨decryptingErrors_of_exec hexec, fun h => ⟨_, (cbcDecrypt s.decrypt s.cbc.cv (blocksOf s.srcBytes)).2,
    length_bytesOf_srcBytes h (cbcDecrypt_length ..), fun j => blockOf_cbcDecrypt _ _ _, ?_,
    decryptsTo_of_exec hwf (exec_of_decryptingReady hexec h)⟩⟩
  obtain ⟨-, -, -, -, hn⟩ := h
  rw [← srcBytes_length] at hn ⊢
  exact cbcDecrypt_snd_eq_ite _ _ hn

/-! ## XEX -/

/-- Settles O41: the loop of R332, at block `j` and at its end. -/
theorem xexEncTweaksEachBlock : Obligations.XexEncTweaksEachBlock := by
  refine ⟨by decide, by decide, fun p s hwf => ?_⟩
  have hexec : exec (.xexEnc p.field) s = check s.keyv .noKey s (check s.xts.xtsv .badState s (encInput p s fun d =>
      succeed ((s.setTwk (xexBlocks s.encrypt s.xts.twk (blocksOf d)).2).writeOut
        (bytesOf (xexBlocks s.encrypt s.xts.twk (blocksOf d)).1)))) := withPad_field p s _
  refine ⟨encryptingErrors_of_exec hexec, fun h => ⟨_, _, exec_of_encryptingReady hexec h, ?_,
    length_bytesOf_padBytes h (xexBlocks_length ..), fun j => blockOf_xexBlocks _ _ _⟩⟩
  rw [bytesOf_length, xexBlocks_length, Nat.mul_div_cancel_left _ (by decide), ← xexBlocks_snd s.encrypt]
  exact outputs_writeOut (s.setTwk _) _ hwf

/-- Settles O42: the loop of R333, at block `j` and at its end. -/
theorem xexDecTweaksEachBlock : Obligations.XexDecTweaksEachBlock := by
  refine ⟨by decide, by decide, fun p s hwf => ?_⟩
  have hexec : exec (.xexDec p.field) s = check s.keyv .noKey s (check s.xts.xtsv .badState s (decInput s fun c =>
      decOutput p (s.setTwk (xexBlocks s.decrypt s.xts.twk (blocksOf c)).2)
        (bytesOf (xexBlocks s.decrypt s.xts.twk (blocksOf c)).1))) := withPad_field p s _
  refine ⟨decryptingErrors_of_exec hexec, fun h => ⟨_, length_bytesOf_srcBytes h (xexBlocks_length ..),
    fun j => blockOf_xexBlocks _ _ _, ?_⟩⟩
  rw [← srcBytes_length, ← blocksOf_length, ← xexBlocks_snd s.decrypt]
  exact decryptsTo_of_exec hwf (exec_of_decryptingReady hexec h)

/-! ## XTS -/

/-- The output of R340 and of R341, from the block `x` at place `m - 1` and the block `y` whose head comes last: the
two commands differ in which tweaks and bytes these two are made of. -/
def xtsOutput (f : Block → Block) (t : Block) (d : List Byte) (x y : Block) : List Byte :=
  if d.length % 16 = 0 then xtsPrefix f t d (d.length / 16)
  else xtsPrefix f t d (d.length / 16 - 1) ++ x.toBytes ++ y.toBytes.take (d.length % 16)

theorem xtsEncrypt_fst (enc : Block → Block) (t : Block) (d : List Byte) {m b : Nat} {cc : Block}
    (hm : m = d.length / 16) (hb : b = d.length % 16)
    (hcc : cc = xexBlock enc (blockOf d (m - 1)) (xtsDoubleIter (m - 1) t)) :
    (xtsEncrypt enc t d).1 = xtsOutput enc t d
      (xexBlock enc (Block.ofBytes (d.drop (16 * m) ++ cc.toBytes.drop b)) (xtsDoubleIter m t)) cc := by
  subst hm hb hcc
  dsimp only [xtsEncrypt, xtsOutput]
  split <;> rfl

theorem xtsDecrypt_fst (dec : Block → Block) (t : Block) (d : List Byte) {m b : Nat} {pp : Block}
    (hm : m = d.length / 16) (hb : b = d.length % 16)
    (hpp : pp = xexBlock dec (blockOf d (m - 1)) (xtsDoubleIter m t)) :
    (xtsDecrypt dec t d).1 = xtsOutput dec t d
      (xexBlock dec (Block.ofBytes (d.drop (16 * m) ++ pp.toBytes.drop b)) (xtsDoubleIter (m - 1) t)) pp := by
  subst hm hb hpp
  dsimp only [xtsDecrypt, xtsOutput]
  split <;> rfl

/-- A tweak for each whole block and one for the stealer (R342). -/
theorem xtsDoubleIter_ceil (t : Block) (n : Nat) : xtsDoubleIter ((n + 15) / 16) t =
    if n % 16 = 0 then xtsDoubleIter (n / 16) t else xtsDoubleIter (n / 16 + 1) t := by
  split <;> congr 1 <;> omega

theorem xtsEncrypt_snd (enc : Block → Block) (t : Block) (d : List Byte) :
    (xtsEncrypt enc t d).2 = xtsDoubleIter ((d.length + 15) / 16) t := by
  rw [xtsDoubleIter_ceil]
  dsimp only [xtsEncrypt]
  split <;> rfl

theorem xtsDecrypt_snd (dec : Block → Block) (t : Block) (d : List Byte) :
    (xtsDecrypt dec t d).2 = xtsDoubleIter ((d.length + 15) / 16) t := by
  rw [xtsDoubleIter_ceil]
  dsimp only [xtsDecrypt]
  split <;> rfl

theorem xtsPrefix_eq_bytesOf (f : Block → Block) (t : Block) (d : List Byte) (n : Nat) : xtsPrefix f t d n =
    bytesOf ((List.range n).map fun j => xexBlock f (blockOf d j) (xtsDoubleIter j t)) := by
  rw [xtsPrefix, bytesOf, List.flatMap_map]

theorem blockOf_xtsPrefix_append (f : Block → Block) (t : Block) (d l : List Byte) {n j : Nat} (hj : j < n) :
    blockOf (xtsPrefix f t d n ++ l) j = xexBlock f (blockOf d j) (xtsDoubleIter j t) := by
  rw [xtsPrefix_eq_bytesOf, blockOf_bytesOf_append l (by simpa using hj)]
  simp [hj]

section
variable {f : Block → Block} {t x y : Block} {d : List Byte}

/-- Every block of the output but the last whole one, and that one too where there is no stealer. -/
theorem blockOf_xtsOutput {j : Nat} (hj : j < d.length / 16) (h : d.length % 16 = 0 ∨ j + 1 < d.length / 16) :
    blockOf (xtsOutput f t d x y) j = xexBlock f (blockOf d j) (xtsDoubleIter j t) := by
  rw [xtsOutput]
  split
  · simpa using blockOf_xtsPrefix_append f t d [] hj
  · rw [List.append_assoc]
    exact blockOf_xtsPrefix_append f t d _ (by omega)

theorem blockOf_xtsOutput_last (hb : d.length % 16 ≠ 0) : blockOf (xtsOutput f t d x y) (d.length / 16 - 1) = x := by
  rw [xtsOutput, if_neg hb]
  exact blockOf_append_toBytes (xtsPrefix_length ..) _ _

theorem drop_xtsOutput (hd : 16 ≤ d.length) (hb : d.length % 16 ≠ 0) :
    (xtsOutput f t d x y).drop (16 * (d.length / 16)) = y.toBytes.take (d.length % 16) := by
  rw [xtsOutput, if_neg hb]
  refine List.drop_left' ?_
  rw [List.length_append, xtsPrefix_length, Block.toBytes_length]
  omega

/-- The whole output: the blocks before the last whole one, that one by whether there is a stealer, and the bytes that
follow it. -/
theorem xtsOutput_blocks {out : List Byte} (hout : out = xtsOutput f t d x y) (hd : 16 ≤ d.length) :
    (∀ j, j + 1 < d.length / 16 → blockOf out j = xexBlock f (blockOf d j) (xtsDoubleIter j t)) ∧
    (d.length % 16 = 0 → blockOf out (d.length / 16 - 1) =
      xexBlock f (blockOf d (d.length / 16 - 1)) (xtsDoubleIter (d.length / 16 - 1) t)) ∧
    (d.length % 16 ≠ 0 → blockOf out (d.length / 16 - 1) = x ∧
      out.drop (16 * (d.length / 16)) = y.toBytes.take (d.length % 16)) := by
  subst hout
  exact ⟨fun j hj => blockOf_xtsOutput (by omega) (.inr hj), fun hb => blockOf_xtsOutput (by omega) (.inl hb),
    fun hb => ⟨blockOf_xtsOutput_last hb, drop_xtsOutput hd hb⟩⟩

end

section
variable {i : Instr} {s : State} {body : Block → List Byte → List Byte × Block} (hexec : exec i s = xtsCommand body s)
include hexec

theorem xtsErrors_of_exec : xtsErrors i s := by
  rw [xtsErrors, hexec, xtsCommand]
  refine ⟨check_keyv, fun hk hl => ?_, fun hk hl hn => ?_, fun hk hl hn hv => ?_⟩ <;> rw [check_of_true hk]
  · exact check_of_false hl
  · rw [check_of_true hl, check_of_false (by simpa using hn)]
  · rw [check_of_true hl, check_of_true (by simpa using hn), check_of_false (Bool.and_eq_false_iff.2 hv)]

theorem exec_of_xtsReady (h : xtsReady s) : exec i s =
    succeed ((s.setTwk (body s.xts.twk s.srcBytes).2).writeOut (body s.xts.twk s.srcBytes).1) := by
  obtain ⟨hk, hl, hn, hs, hd⟩ := h
  rw [hexec, xtsCommand, check_of_true hk, check_of_true hl, check_of_true (by simpa using hn),
    check_of_true (Bool.and_eq_true_iff.2 ⟨hs, hd⟩)]

end

/-- Settles O43: the blocks of the output, with the rebuilt block at place `m - 1` and the head of CC last. -/
theorem xtsEncStealsCiphertext : Obligations.XtsEncStealsCiphertext := by
  refine ⟨by decide, fun s hwf => ⟨xtsErrors_of_exec rfl, fun h => ?_⟩⟩
  have hexec := exec_of_xtsReady (i := .xtsEnc) rfl h
  obtain ⟨-, -, hn, -, -⟩ := h
  rw [← srcBytes_length] at hn ⊢
  refine ⟨_, (xtsEncrypt s.encrypt s.xts.twk s.srcBytes).1, hexec, ?_, xtsEncrypt_length _ _ _ hn,
    _, _, _, rfl, rfl, rfl, xtsOutput_blocks (xtsEncrypt_fst _ _ _ rfl rfl rfl) hn⟩
  rw [← xtsEncrypt_snd s.encrypt]
  exact outputs_writeOut (s.setTwk _) _ hwf

/-- Settles O44: the blocks of the output, with the rebuilt block at place `m - 1` and the head of PP last. -/
theorem xtsDecRebuildsStolenBlock : Obligations.XtsDecRebuildsStolenBlock := by
  refine ⟨by decide, fun s hwf => ⟨xtsErrors_of_exec rfl, fun h => ?_⟩⟩
  have hexec := exec_of_xtsReady (i := .xtsDec) rfl h
  obtain ⟨-, -, hn, -, -⟩ := h
  rw [← srcBytes_length] at hn ⊢
  refine ⟨_, (xtsDecrypt s.decrypt s.xts.twk s.srcBytes).1, hexec, ?_, xtsDecrypt_length _ _ _ hn,
    _, _, _, rfl, rfl, rfl, xtsOutput_blocks (xtsDecrypt_fst _ _ _ rfl rfl rfl) hn⟩
  rw [← xtsDecrypt_snd s.decrypt]
  exact outputs_writeOut (s.setTwk _) _ hwf

/-! ## The set commands -/

/-- Settles O36: the checks of the three commands in order, then the load of the context. -/
theorem setCommandsLoadTheirContexts : Obligations.SetCommandsLoadTheirContexts := by
  refine ⟨by decide, by decide, by decide, fun s => ⟨fun h => ⟨check_of_false h, check_of_false h⟩,
    fun h => ⟨check_of_true h, check_of_true h⟩, check_keyv, fun hk h => ?_, fun hk h => ?_⟩⟩
  · exact (check_of_true hk).trans (check_of_false h)
  · exact (check_of_true hk).trans (check_of_true h)

end Sys2Proof.Machine

/-! # The counter increment, and the blocks off the front of a string -/

namespace Sys2Proof.Machine

/-! ## The counter -/

theorem be128_fromBe128 (x : Nat) : (Block.fromBe128 x).be128 = x % 2 ^ 128 := by
  rw [Block.be128, Block.fromBe128, Block.toBytes_ofBytes _ (beBytes_length ..), beNat_beBytes]
  norm_num

/-- Settles O59: the increment is taken mod 2^128 already, and `from_be128` keeps such a number. -/
theorem counterIncrementsBigEndian : Obligations.CounterIncrementsBigEndian := by
  intro c
  rw [incCounter, be128_fromBe128, Nat.mod_mod]

/-! ## Blocks off the front of a string -/

theorem eq_of_get {a b : Block} (h : ∀ i, i < 16 → a.get i = b.get i) : a = b := by
  have hbytes : a.toBytes = b.toBytes := List.ext_getElem rfl fun i hi hi' => by
    rw [← List.getD_eq_getElem _ 0 hi, ← List.getD_eq_getElem _ 0 hi']
    exact h i hi
  rw [← Block.ofBytes_toBytes a, hbytes, Block.ofBytes_toBytes]

theorem toBytes_set (b : Block) (k : Nat) (x : Byte) : (b.set k x).toBytes = b.toBytes.set k x :=
  Block.toBytes_ofBytes _ (List.length_set ..)

theorem blocksOf_of_length_lt {d : List Byte} (h : d.length < 16) : blocksOf d = [] := by
  rw [← List.length_eq_zero_iff, blocksOf_length]
  omega

theorem blocksOf_toBytes_append (b : Block) (d : List Byte) : blocksOf (b.toBytes ++ d) = b :: blocksOf d := by
  have hlen : (b.toBytes ++ d).length / 16 = d.length / 16 + 1 := by
    rw [List.length_append, Block.toBytes_length]
    omega
  rw [blocksOf, hlen, List.range_succ_eq_map, List.map_cons, List.map_map]
  rfl

/-- What is left of a string after its whole blocks. -/
def tailOf (d : List Byte) : List Byte := d.drop (16 * (d.length / 16))

theorem tailOf_of_length_lt {d : List Byte} (h : d.length < 16) : tailOf d = d := by
  rw [tailOf, Nat.div_eq_of_lt h]
  rfl

theorem tailOf_toBytes_append (b : Block) (d : List Byte) : tailOf (b.toBytes ++ d) = tailOf d := by
  have hlen : 16 * ((b.toBytes ++ d).length / 16) = b.toBytes.length + 16 * (d.length / 16) := by
    rw [List.length_append, Block.toBytes_length]
    omega
  rw [tailOf, hlen, List.drop_length_add_append, tailOf]

/-- Induction on a string by the blocks off its front. -/
theorem blocks_induction {P : List Byte → Prop} (short : ∀ d : List Byte, d.length < 16 → P d)
    (block : ∀ (b : Block) (d : List Byte), P d → P (b.toBytes ++ d)) (d : List Byte) : P d := by
  induction hn : d.length using Nat.strong_induction_on generalizing d with
  | h n ih =>
    rcases Nat.lt_or_ge d.length 16 with hlt | hge
    · exact short d hlt
    · have hhead : (Block.ofBytes (d.take 16)).toBytes = d.take 16 :=
        Block.toBytes_ofBytes _ (List.length_take_of_le hge)
      have hd := block (Block.ofBytes (d.take 16)) (d.drop 16) (ih _ (by rw [List.length_drop]; omega) _ rfl)
      rwa [hhead, List.take_append_drop] at hd

end Sys2Proof.Machine

/-! # The GHASH commands -/

namespace Sys2Proof.Machine

/-! ## The phase -/

section
variable {s : State}

theorem check_ghph {k : Result} (h : s.ghash.ghph ≠ .active) :
    check (s.ghash.ghph == .active) .badState s k = .next (s.complete .badState) :=
  check_of_false (by simpa using h)

/-- In the phase ACTIVE, the range is left to check (R384). -/
theorem execGhashUpdate_eq_check (h : s.ghash.ghph = .active) : execGhashUpdate s =
    check (s.srcValid s.count) .badAddress s (succeed { s with ghash := ghashData s.ghash s.srcBytes }) :=
  check_of_true (by simpa using h)

/-- In the phase ACTIVE, the range is left to check (R385). -/
theorem execGhashFinal_eq_check (h : s.ghash.ghph = .active) : execGhashFinal s =
    check (s.dstValid 16) .badAddress s
      (succeed ({ s with ghash := ghashFinish s.ghash }.writeOut (ghashFinish s.ghash).acc.toBytes)) :=
  check_of_true (by simpa using h)

end

/-! ## GHASH_UPDATE -/

/-- The bytes of the partial block (R381). -/
def GhashContext.pending (g : GhashContext) : List Byte := g.buf.toBytes.take g.blen.toNat

/-- The context with the whole blocks of a string folded and the rest of it as the partial block. -/
def GhashContext.absorb (g : GhashContext) (e : List Byte) : GhashContext :=
  { g with
    acc := (blocksOf e).foldl (ghashFold g.h) g.acc, buf := Block.ofBytes (tailOf e),
    blen := BitVec.ofNat 4 (e.length % 16) }

theorem absorb_toBytes_append (g : GhashContext) (b : Block) (e : List Byte) :
    g.absorb (b.toBytes ++ e) = GhashContext.absorb { g with acc := ghashFold g.h g.acc b } e := by
  have hlen : (b.toBytes ++ e).length % 16 = e.length % 16 := by
    rw [List.length_append, Block.toBytes_length, Nat.add_mod_left]
  rw [GhashContext.absorb, blocksOf_toBytes_append, tailOf_toBytes_append, hlen]
  rfl

theorem pending_length (g : GhashContext) : g.pending.length = g.blen.toNat := by
  rw [GhashContext.pending, List.length_take, Block.toBytes_length]
  omega

/-- The zero bytes of R381 are what the partial block is padded with. -/
theorem ofBytes_pending {g : GhashContext} (h : g.Inv) : Block.ofBytes g.pending = g.buf := by
  refine eq_of_get fun i hi => ?_
  have hlen := pending_length g
  rw [get_ofBytes _ hi]
  by_cases hlt : i < g.blen.toNat
  · simp [GhashContext.pending, Block.get, List.getD_eq_getElem?_getD, hlt]
  · rw [List.getD_eq_default _ _ (by omega), h i (by omega) hi]

theorem absorb_pending {g : GhashContext} (h : g.Inv) : g.absorb g.pending = g := by
  have hlen := pending_length g
  have hlt : g.pending.length < 16 := by omega
  rw [GhashContext.absorb, blocksOf_of_length_lt hlt, tailOf_of_length_lt hlt, ofBytes_pending h,
    Nat.mod_eq_of_lt hlt, hlen, BitVec.ofNat_toNat, BitVec.setWidth_eq]
  rfl

/-- A byte put at the first free place of GH_BUF stands after the partial block. -/
theorem take_set_blen (g : GhashContext) (x : Byte) :
    (g.buf.set g.blen.toNat x).toBytes.take (g.blen.toNat + 1) = g.pending ++ [x] := by
  have hlt : g.blen.toNat < (g.buf.toBytes.set g.blen.toNat x).length := by
    rw [List.length_set, Block.toBytes_length]
    omega
  rw [toBytes_set, List.take_succ_eq_append_getElem hlt, List.getElem_set_self, List.take_set_of_le le_rfl,
    GhashContext.pending]

/-- Bytes taken one by one are absorbed after the partial block. -/
theorem foldl_ghashByte {g : GhashContext} (d : List Byte) (h : g.Inv) :
    d.foldl ghashByte g = g.absorb (g.pending ++ d) := by
  induction d generalizing g with
  | nil => rw [List.append_nil, absorb_pending h, List.foldl_nil]
  | cons x d ih =>
    rw [List.foldl_cons, ih (ghashByte_inv x h).1, List.append_cons, ← take_set_blen]
    dsimp only [ghashByte]
    split
    · next hfull =>
      rw [hfull, List.take_of_length_le (by simp), absorb_toBytes_append]
      rfl
    · next hfull =>
      have hlen : (g.blen + 1).toNat = g.blen.toNat + 1 := by bv_omega
      rw [← hlen]
      rfl

theorem ghashData_eq {g : GhashContext} (d : List Byte) (h : g.Inv) :
    ghashData g d =
      { g.absorb (g.pending ++ d) with dlen := g.dlen + BitVec.ofNat 64 d.length } := by
  rw [ghashData, foldl_ghashByte d h]

/-- Settles O49: the bytes of the data are absorbed after those of the partial block. -/
theorem ghashUpdateFoldsWholeBlocks : Obligations.GhashUpdateFoldsWholeBlocks := by
  refine ⟨by decide, fun s hinv => ⟨check_ghph, fun hp => (execGhashUpdate_eq_check hp).trans ∘ check_of_false,
    fun hp hs => ⟨_, _, (execGhashUpdate_eq_check hp).trans (check_of_true hs), ⟨rfl, rfl, rfl⟩, rfl, ?_, rfl⟩⟩⟩
  rw [complete_ghash, ghashData_eq _ hinv, srcBytes_length]
  rfl

/-! ## GHASH_INIT and GHASH_FINAL -/

/-- Settles O48: the check of the two ranges, then the start of a hash. -/
theorem ghashInitFoldsTheAad : Obligations.GhashInitFoldsTheAad := by
  refine ⟨by decide, fun s => ⟨fun h => check_of_false (Bool.and_eq_false_iff.2 h), fun hs ha => ?_⟩⟩
  refine ⟨_, check_of_true (Bool.and_eq_true_iff.2 ⟨hs, ha⟩), ⟨rfl, rfl, rfl⟩, rfl, ?_, ?_, rfl, rfl, rfl, rfl, rfl⟩
  · rw [← auxBytes_length]
    exact List.foldl_map
  · have hlen : s.auxBytes.length < 2 ^ 64 := (auxBytes_length s).trans_lt (s.lenl.isLt.trans (by decide))
    exact (Nat.mod_eq_of_lt hlen).trans (auxBytes_length s)

theorem ghashFlush_eq (g : GhashContext) : ghashFlush g =
    { g with
      acc := (if g.blen = 0 then g.acc else ghashFold g.h g.acc g.buf),
      buf := (if g.blen = 0 then g.buf else Block.zero), blen := 0 } := by
  by_cases hz : g.blen = 0
  · rw [ghashFlush, if_neg (by simp [hz]), if_pos hz, if_pos hz, ← hz]
  · rw [ghashFlush, if_pos (by bv_omega), if_neg hz, if_neg hz]

theorem ghashFinish_eq (g : GhashContext) : ghashFinish g =
    { g with
      acc := (ghashFinish g).acc, buf := (if g.blen = 0 then g.buf else Block.zero), blen := 0, ghph := .final } := by
  rw [ghashFinish, ghashFlush_eq]

/-- Settles O50: the fold of the partial block, then that of the lengths block, whose result is kept and written. -/
theorem ghashFinalWritesTheHash : Obligations.GhashFinalWritesTheHash := by
  refine ⟨by decide, fun s hwf => ⟨check_ghph, fun hp => (execGhashFinal_eq_check hp).trans ∘ check_of_false,
    fun hp hd => ⟨_, _, (execGhashFinal_eq_check hp).trans (check_of_true hd), rfl, ?_, ghashFinish_eq s.ghash,
      outputs_writeOut { s with ghash := ghashFinish s.ghash } _ hwf⟩⟩⟩
  rw [complete_ghash, writeOut_ghash, ghashFinish, ghashFlush_eq]
  rfl

end Sys2Proof.Machine

/-! # CTR_XOR -/

namespace Sys2Proof.Machine

/-! ## The keystream -/

/-- From context `c`, the string `d` is XORed with the keystream to `r.1`, and `r.2` is the context that stands as
many bytes further in the keystream (R362 to R364). -/
structure CtrStreams (enc : Block → Block) (c : CtrContext) (d : List Byte) (r : List Byte × CtrContext) : Prop where
  length : r.1.length = d.length
  byte : ∀ i, i < d.length → r.1.getD i 0 = d.getD i 0 ^^^ keystreamByte enc c i
  keystream : ∀ i, keystreamByte enc r.2 i = keystreamByte enc c (d.length + i)
  cnt : r.2.cnt = incIter ((d.length - c.kslen.toNat + 15) / 16) c.cnt
  kslen : r.2.kslen.toNat = if d.length ≤ c.kslen.toNat then c.kslen.toNat - d.length
    else (16 - (d.length - c.kslen.toNat) % 16) % 16
  ctrv : r.2.ctrv = c.ctrv

theorem incIter_add (m n : Nat) (c : Block) : incIter (m + n) c = incIter n (incIter m c) := by
  induction m generalizing c with
  | zero => rw [Nat.zero_add, incIter]
  | succ m ih => rw [Nat.add_right_comm, incIter, ih, incIter]

theorem xorBytes_getD {a b : List Byte} {i : Nat} (ha : i < a.length) (hb : i < b.length) :
    (xorBytes a b).getD i 0 = a.getD i 0 ^^^ b.getD i 0 := by
  simp [xorBytes, List.getD_eq_getElem?_getD, ha, hb]

/-- The leftover comes first (R363). -/
theorem keystreamByte_of_lt (enc : Block → Block) {c : CtrContext} {i : Nat} (hi : i < c.kslen.toNat) :
    keystreamByte enc c i = c.ksbuf.get (16 - c.kslen.toNat + i) := if_pos hi

/-- After the leftover, the keystream is that of the blocks of the counter. -/
theorem keystreamByte_of_le (enc : Block → Block) {c : CtrContext} {i : Nat} (hi : c.kslen.toNat ≤ i) :
    keystreamByte enc c i =
      (enc (incIter ((i - c.kslen.toNat) / 16) c.cnt)).get ((i - c.kslen.toNat) % 16) := if_neg (Nat.not_lt.2 hi)

/-- With no leftover, the keystream begins with the counter's block. -/
theorem keystreamByte_fresh (enc : Block → Block) {c : CtrContext} (hk : c.kslen.toNat = 0) {i : Nat} (hi : i < 16) :
    keystreamByte enc c i = (enc c.cnt).get i := by
  rw [keystreamByte_of_le enc (by omega), hk, Nat.sub_zero, Nat.div_eq_of_lt hi, Nat.mod_eq_of_lt hi, incIter]

theorem ctrStreams_nil (enc : Block → Block) (c : CtrContext) : CtrStreams enc c [] ([], c) where
  length := rfl
  byte _ hi := absurd hi (Nat.not_lt_zero _)
  keystream i := by rw [List.length_nil, Nat.zero_add]
  cnt := by rw [List.length_nil, Nat.zero_sub]; rfl
  kslen := by simp
  ctrv := rfl

/-- A stream goes on from the context that the one before it left. -/
theorem CtrStreams.append {enc : Block → Block} {c : CtrContext} {d e : List Byte} {r q : List Byte × CtrContext}
    (hr : CtrStreams enc c d r) (hq : CtrStreams enc r.2 e q) : CtrStreams enc c (d ++ e) (r.1 ++ q.1, q.2) where
  length := by rw [List.length_append, List.length_append, hr.length, hq.length]
  byte i hi := by
    rw [List.length_append] at hi
    rcases Nat.lt_or_ge i d.length with hlt | hge
    · rw [List.getD_append _ _ _ _ (hr.length ▸ hlt), List.getD_append _ _ _ _ hlt, hr.byte i hlt]
    · obtain ⟨k, rfl⟩ := Nat.exists_eq_add_of_le hge
      rw [List.getD_append_right _ _ _ _ (hr.length ▸ hge), List.getD_append_right _ _ _ _ hge, hr.length,
        Nat.add_sub_cancel_left, hq.byte k (by omega), hr.keystream]
  keystream i := by rw [hq.keystream, hr.keystream, List.length_append, Nat.add_assoc]
  cnt := by
    have hkslen := hr.kslen
    rw [hq.cnt, hr.cnt, ← incIter_add, List.length_append]
    congr 1
    split at hkslen <;> omega
  kslen := by
    have hkslen := hr.kslen
    rw [hq.kslen, List.length_append]
    split at hkslen <;> split <;> split <;> omega
  ctrv := hq.ctrv.trans hr.ctrv

/-! ## The three steps of R362 -/

/-- A byte of the leftover. -/
theorem ctrStreams_useByte (enc : Block → Block) {c : CtrContext} (x : Byte) (hk : c.kslen ≠ 0) :
    CtrStreams enc c [x] ([x ^^^ c.ksbuf.get (16 - c.kslen.toNat)],
      { c with ksbuf := c.ksbuf.set (16 - c.kslen.toNat) 0, kslen := c.kslen - 1 }) := by
  have hpos : 0 < c.kslen.toNat := by bv_omega
  have hlen : (c.kslen - 1).toNat = c.kslen.toNat - 1 := by bv_omega
  exact {
    length := rfl
    byte := fun i hi => by
      obtain rfl : i = 0 := Nat.lt_one_iff.1 hi
      rw [keystreamByte_of_lt enc hpos]
      rfl
    keystream := fun i => by
      rw [List.length_singleton]
      rcases Nat.lt_or_ge (1 + i) c.kslen.toNat with hlt | hge
      · have hplace : 16 - (c.kslen.toNat - 1) + i = 16 - c.kslen.toNat + (1 + i) := by omega
        rw [keystreamByte_of_lt enc hlt, keystreamByte_of_lt enc (by simp only [hlen]; omega)]
        simp only [hlen, hplace]
        rw [get_set _ _ _ (by omega), if_neg (by omega)]
      · have hplace : i - (c.kslen.toNat - 1) = 1 + i - c.kslen.toNat := by omega
        rw [keystreamByte_of_le enc hge, keystreamByte_of_le enc (by simp only [hlen]; omega)]
        simp only [hlen, hplace]
    cnt := by
      have hzero : (1 - c.kslen.toNat + 15) / 16 = 0 := by omega
      rw [List.length_singleton, hzero]
      rfl
    kslen := by
      rw [List.length_singleton, if_pos (Nat.succ_le_of_lt hpos)]
      exact hlen
    ctrv := rfl }

/-- Step 1: the leftover is used up, or all of the data is. -/
theorem ctrStreams_drain (enc : Block → Block) (c : CtrContext) (d : List Byte) :
    CtrStreams enc c (d.take c.kslen.toNat) ((ctrDrain c d).1, (ctrDrain c d).2.1) ∧
      (ctrDrain c d).2.2 = d.drop c.kslen.toNat := by
  induction d generalizing c with
  | nil => exact ⟨by simpa [ctrDrain] using ctrStreams_nil enc c, List.drop_nil.symm⟩
  | cons x d ih =>
    unfold ctrDrain
    split
    · next hk =>
      rw [hk]
      exact ⟨ctrStreams_nil enc c, rfl⟩
    · next hk =>
      obtain ⟨hstream, hrest⟩ := ih { c with ksbuf := c.ksbuf.set (16 - c.kslen.toNat) 0, kslen := c.kslen - 1 }
      have hlen : c.kslen.toNat = (c.kslen - 1).toNat + 1 := by bv_omega
      rw [hlen, List.take_succ_cons, List.drop_succ_cons, ← hlen]
      exact ⟨(ctrStreams_useByte enc x hk).append hstream, hrest⟩

/-- Up to 16 bytes with no leftover: the counter's block is begun, and what is left of it is the leftover. -/
theorem ctrStreams_begin (enc : Block → Block) {c c' : CtrContext} {d : List Byte} (hk : c.kslen.toNat = 0)
    (hpos : 0 < d.length) (hle : d.length ≤ 16) (hcnt : c'.cnt = incCounter c.cnt)
    (hkslen : c'.kslen.toNat = 16 - d.length) (hctrv : c'.ctrv = c.ctrv)
    (hksbuf : ∀ i, d.length ≤ i → i < 16 → c'.ksbuf.get i = (enc c.cnt).get i) :
    CtrStreams enc c d (xorBytes d ((enc c.cnt).toBytes.take d.length), c') where
  length := by simp [xorBytes, hle]
  byte i hi := by
    have htake : i < ((enc c.cnt).toBytes.take d.length).length := by simpa [hle] using hi
    have hbytes : i < (enc c.cnt).toBytes.length := by rw [Block.toBytes_length]; omega
    rw [keystreamByte_fresh enc hk (by omega), xorBytes_getD hi htake, List.getD_eq_getElem _ _ htake,
      List.getElem_take, Block.get, List.getD_eq_getElem _ _ hbytes]
  keystream i := by
    change keystreamByte enc c' i = _
    rcases Nat.lt_or_ge i (16 - d.length) with hlt | hge
    · have hplace : 16 - (16 - d.length) + i = d.length + i := by omega
      rw [keystreamByte_fresh enc hk (by omega), keystreamByte_of_lt enc (by omega), hkslen, hplace,
        hksbuf _ (by omega) (by omega)]
    · have hnext : d.length + i = 16 + (i - (16 - d.length)) := by omega
      rw [hnext, keystreamByte_of_le enc (by omega), keystreamByte_of_le enc (by omega), hkslen, hcnt, hk, Nat.sub_zero,
        Nat.add_div_left _ (by decide), Nat.add_mod_left, incIter]
  cnt := by
    have hone : (d.length - c.kslen.toNat + 15) / 16 = 1 := by omega
    rw [hone]
    exact hcnt
  kslen := by
    rw [if_neg (by omega)]
    exact hkslen.trans (by omega)
  ctrv := hctrv

/-- A whole block of step 2. -/
theorem ctrStreams_block (enc : Block → Block) {c : CtrContext} (b : Block) (hk : c.kslen.toNat = 0) :
    CtrStreams enc c b.toBytes ((b.xor (enc c.cnt)).toBytes, { c with cnt := incCounter c.cnt }) :=
  ctrStreams_begin enc hk (by simp) le_rfl rfl hk rfl fun i hle hlt => absurd hlt (Nat.not_lt.2 hle)

/-- Step 3: the tail, if there is one. -/
theorem ctrStreams_tail (enc : Block → Block) {c : CtrContext} {d : List Byte} (hk : c.kslen.toNat = 0)
    (hd : d.length < 16) : CtrStreams enc c d (ctrTail enc c d) := by
  unfold ctrTail
  split
  · next hnil =>
    rw [List.length_eq_zero_iff.1 hnil]
    exact ctrStreams_nil enc c
  · next hne =>
    refine ctrStreams_begin enc hk (by omega) hd.le rfl (Nat.mod_eq_of_lt (by omega)) rfl fun i hle hlt => ?_
    rw [get_ofBytes _ hlt, List.getD_append_right _ _ _ _ (by simpa using hle)]
    simp [Block.get, List.getD_eq_getElem?_getD, hle]

/-- Steps 2 and 3: with no leftover, block by block and then the tail. -/
theorem ctrStreams_fresh (enc : Block → Block) {c : CtrContext} (d : List Byte) (hk : c.kslen.toNat = 0) :
    CtrStreams enc c d
      (bytesOf (ctrChunks enc c (blocksOf d)).1 ++ (ctrTail enc (ctrChunks enc c (blocksOf d)).2 (tailOf d)).1,
        (ctrTail enc (ctrChunks enc c (blocksOf d)).2 (tailOf d)).2) := by
  induction d using blocks_induction generalizing c with
  | short d hd =>
    rw [blocksOf_of_length_lt hd, tailOf_of_length_lt hd]
    exact ctrStreams_tail enc hk hd
  | block b d ih =>
    rw [blocksOf_toBytes_append, tailOf_toBytes_append, ctrChunks, bytesOf_cons, List.append_assoc]
    exact (ctrStreams_block enc b hk).append (ih hk)

/-- The steps together: where the drain leaves data over, it leaves no leftover, and where not, it is all there is. -/
theorem ctrStreams_ctrStream (enc : Block → Block) (c : CtrContext) (d : List Byte) :
    CtrStreams enc c d (ctrStream enc c d) := by
  obtain ⟨hdrain, hrest⟩ := ctrStreams_drain enc c d
  rcases Nat.lt_or_ge c.kslen.toNat d.length with hlt | hge
  · have hkslen := hdrain.kslen
    rw [List.length_take_of_le hlt.le, if_pos le_rfl, Nat.sub_self] at hkslen
    have hall := hdrain.append (ctrStreams_fresh enc (ctrDrain c d).2.2 hkslen)
    rw [hrest, List.take_append_drop, ← hrest, ← List.append_assoc] at hall
    exact hall
  · rw [List.drop_of_length_le hge] at hrest
    rw [List.take_of_length_le hge] at hdrain
    have hdrained : ctrStream enc c d = ((ctrDrain c d).1, (ctrDrain c d).2.1) := by
      rw [ctrStream, hrest]
      simp [blocksOf, ctrChunks, ctrTail]
    rwa [hdrained]

/-- Settles O46: the three checks in order, then the stream from the context, which ends as many bytes further in its
keystream. -/
theorem ctrXorAppliesTheKeystream : Obligations.CtrXorAppliesTheKeystream := by
  refine ⟨by decide, fun s hwf => ⟨check_keyv, fun hk hc => (check_of_true hk).trans (check_of_false hc),
    fun hk hc => ?_⟩⟩
  have hexec : exec .ctrXor s = check (s.srcValid s.count && s.dstValid s.count) .badAddress s
      (succeed ({ s with ctr := (ctrStream s.encrypt s.ctr s.srcBytes).2 }.writeOut
        (ctrStream s.encrypt s.ctr s.srcBytes).1)) := (check_of_true hk).trans (check_of_true hc)
  rw [hexec]
  refine ⟨fun hv => check_of_false (Bool.and_eq_false_iff.2 hv), fun hs hd => ?_⟩
  obtain ⟨hlen, hbyte, hkeystream, hcnt, hkslen, hctrv⟩ := ctrStreams_ctrStream s.encrypt s.ctr s.srcBytes
  rw [srcBytes_length] at hlen hbyte hkeystream hcnt hkslen
  refine ⟨_, _, check_of_true (Bool.and_eq_true_iff.2 ⟨hs, hd⟩), outputs_writeOut { s with ctr := _ } _ hwf, hlen,
    fun i hi => ?_, hcnt, hkslen, fun i hi => ?_, hctrv.trans hc,
    fun hinv => (ctrStream_inv s.encrypt s.srcBytes hinv).1⟩
  · rw [hbyte i hi, srcBytes_getD s hi]
  · rw [← hkeystream]
    exact (keystreamByte_of_lt _ hi).symm

end Sys2Proof.Machine

/-! # Errors, unused operands and the interrupt -/

namespace Sys2Proof.Machine

/-! ## What an error leaves behind -/

/-- How a command that reports an error ends (R401, R305): from the state at issue, with a code other than
PAD_BAD_PADDING; or, in a decrypting block mode, with PAD_BAD_PADDING after its mode's update. -/
inductive RaisesTo : Instr → State → State → Prop
  | checked (i : Instr) (s : State) {code : ErrCode} (h : code ≠ .padBadPadding) : RaisesTo i s (s.complete code)
  | ecbDec (pad : BitVec 2) (s : State) : RaisesTo (.ecbDec pad) s (s.complete .padBadPadding)
  | cbcDec (pad : BitVec 2) (s : State) : RaisesTo (.cbcDec pad) s
      ((s.setCv (cbcDecrypt s.decrypt s.cbc.cv (blocksOf s.srcBytes)).2).complete .padBadPadding)
  | xexDec (pad : BitVec 2) (s : State) : RaisesTo (.xexDec pad) s
      ((s.setTwk (xexBlocks s.decrypt s.xts.twk (blocksOf s.srcBytes)).2).complete .padBadPadding)

section

variable {i : Instr} {s : State}

/-- Where the result reports an error, it is one of the ends of the command `i` from `s`. -/
def RaisesOnly (i : Instr) (s : State) (r : Result) : Prop := ∀ t, r = .next t → t.err ≠ .ok → RaisesTo i s t

theorem RaisesOnly.succeed {u : State} : RaisesOnly i s (succeed u) := by
  intro t ht hne
  rw [(succeed_next ..).1 ht] at hne
  exact absurd rfl hne

theorem RaisesOnly.raiseError {u : State} {code : ErrCode} (h : RaisesTo i s (u.complete code)) :
    RaisesOnly i s (raiseError code u) := by
  intro t ht _
  exact (raiseError_next ..).1 ht ▸ h

theorem RaisesOnly.check {ok : Bool} {code : ErrCode} {k : Result} (hc : code ≠ .padBadPadding)
    (h : RaisesOnly i s k) : RaisesOnly i s (check ok code s k) := by
  cases ok with
  | true => exact h
  | false => exact .raiseError (.checked i s hc)

theorem RaisesOnly.withPad {pad : BitVec 2} {k : Pad → Result} (h : ∀ p, RaisesOnly i s (k p)) :
    RaisesOnly i s (withPad pad s k) := by
  unfold Machine.withPad
  split
  · exact h _
  · exact .raiseError (.checked i s nofun)

theorem RaisesOnly.encInput {p : Pad} {k : List Byte → Result} (h : ∀ d, RaisesOnly i s (k d)) :
    RaisesOnly i s (encInput p s k) := .check nofun (.check nofun (h _))

theorem RaisesOnly.decInput {k : List Byte → Result} (h : RaisesOnly i s (k s.srcBytes)) :
    RaisesOnly i s (decInput s k) := .check nofun (.check nofun h)

theorem RaisesOnly.decOutput {p : Pad} {u : State} {out : List Byte} (h : RaisesTo i s (u.complete .padBadPadding)) :
    RaisesOnly i s (decOutput p u out) := by
  unfold Machine.decOutput
  split
  · exact .succeed
  · exact .raiseError h

end

theorem execKeyLoad_raisesOnly (s : State) : RaisesOnly .keyLoad s (execKeyLoad s) := by
  unfold execKeyLoad
  split
  · exact .raiseError (.checked _ s nofun)
  · exact .check nofun .succeed

theorem execStateRead_raisesOnly (sel : BitVec 4) (s : State) :
    RaisesOnly (.stateRead sel) s (execStateRead sel s) := by
  unfold execStateRead
  split
  · exact .raiseError (.checked _ s nofun)
  · exact .check nofun .succeed

/-- Every check of a command stands before its update; only the unpadding of a decrypting mode stands behind it. -/
theorem exec_raisesOnly (i : Instr) (s : State) : RaisesOnly i s (exec i s) := by
  cases i with
  | nop | keyClear => exact .succeed
  | keyLoad => exact execKeyLoad_raisesOnly s
  | stateRead sel => exact execStateRead_raisesOnly sel s
  | gf8Mul | sboxFwd | sboxInv | gf128Mul | cbcSetiv | ctrSetctr | ghashInit => exact .check nofun .succeed
  | xtsSettweak | ghashUpdate | ghashFinal => exact .check nofun (.check nofun .succeed)
  | ksRead | blkEnc | blkDec | ctrXor => exact .check nofun (.check nofun (.check nofun .succeed))
  | xtsEnc | xtsDec => exact .check nofun (.check nofun (.check nofun (.check nofun .succeed)))
  | ecbEnc => exact .withPad fun _ => .check nofun (.encInput fun _ => .succeed)
  | cbcEnc | xexEnc => exact .withPad fun _ => .check nofun (.check nofun (.encInput fun _ => .succeed))
  | ecbDec pad => exact .withPad fun _ => .check nofun (.decInput (.decOutput (.ecbDec pad s)))
  | cbcDec pad => exact .withPad fun _ => .check nofun (.check nofun (.decInput (.decOutput (.cbcDec pad s))))
  | xexDec pad => exact .withPad fun _ => .check nofun (.check nofun (.decInput (.decOutput (.xexDec pad s))))

/-- What every error leaves (R401): the completion, and all but STATUS and the contexts of CBC and XEX as before. -/
theorem RaisesTo.keeps {i : Instr} {s t : State} (h : RaisesTo i s t) :
    t.busy = false ∧ t.done = true ∧ t.outlen = s.outlen ∧ t.dmem = s.dmem ∧ dmemKept s t ∧ sameKey s t ∧
      t.ctr = s.ctr ∧ t.ghash = s.ghash := by
  cases h <;> exact ⟨rfl, rfl, rfl, rfl, fun _ => rfl, ⟨rfl, rfl, rfl⟩, rfl, rfl⟩

theorem RaisesTo.sameContexts {i : Instr} {s t : State} (h : RaisesTo i s t) (hne : t.err ≠ .padBadPadding) :
    sameContexts s t := by
  cases h with
  | checked => exact ⟨rfl, rfl, rfl, rfl⟩
  | _ => exact absurd rfl hne

/-- Settles O24: an error stands before the command's update, but for the padding failure of a decrypting mode. -/
theorem errorsChangeNothingElse : Obligations.ErrorsChangeNothingElse := by
  intro i s t h hne
  have hraise : RaisesTo i s t := exec_raisesOnly i s t h hne
  obtain ⟨hbusy, hdone, houtlen, hdmem, hkept, hkey, hctr, hghash⟩ := hraise.keeps
  refine ⟨hbusy, hdone, houtlen, hdmem, hkept, hkey, commandsKeepTheHostSide i s _ h, hctr, hghash,
    hraise.sameContexts, fun hpad => ?_⟩
  cases hraise with
  | checked _ _ hc => exact absurd hpad hc
  | ecbDec pad => exact .inl ⟨⟨pad, rfl⟩, rfl, rfl, rfl, rfl⟩
  | cbcDec pad => exact .inr (.inl ⟨⟨pad, rfl⟩, rfl, rfl⟩)
  | xexDec pad =>
    refine .inr (.inr ⟨⟨pad, rfl⟩, rfl, ?_⟩)
    rw [complete_xts, setTwk_xts, xexBlocks_snd, blocksOf_length, srcBytes_length]

/-! ## The operand latches a command does not use -/

/-- The latches of the operand registers (R37). -/
inductive Latch where
  | src
  | dst
  | len
  | aux

/-- The state with another value in an operand latch. -/
def State.setLatch (s : State) (a : Word) : Latch → State
  | .src => { s with srcl := a }
  | .dst => { s with dstl := a }
  | .len => { s with lenl := a }
  | .aux => { s with auxl := a }

section

variable {a : Word} {l : Latch}

theorem complete_setLatch (s : State) (code : ErrCode) :
    (s.setLatch a l).complete code = (s.complete code).setLatch a l := by
  cases l <;> rfl

/-- The result `r'` is the result `r` with another value in an operand latch. -/
def AgreesLatch (a : Word) (l : Latch) (r' r : Result) : Prop := r' = mapNext (·.setLatch a l) r

theorem AgreesLatch.raiseError (code : ErrCode) (s : State) :
    AgreesLatch a l (raiseError code (s.setLatch a l)) (raiseError code s) :=
  congrArg Host.Outcome.next (complete_setLatch s code)

theorem AgreesLatch.succeed {u' u : State} (h : u' = u.setLatch a l) : AgreesLatch a l (succeed u') (succeed u) :=
  h ▸ .raiseError .ok u

theorem AgreesLatch.check {ok' ok : Bool} {code : ErrCode} {s : State} {k' k : Result} (hok : ok' = ok)
    (h : AgreesLatch a l k' k) : AgreesLatch a l (check ok' code (s.setLatch a l) k') (check ok code s k) := by
  subst hok
  cases ok' with
  | true => exact h
  | false => exact .raiseError code s

/-- A string written at DSTL, where the latch is not DSTL itself. -/
theorem AgreesLatch.output {u' u : State} {v' v : List Byte} (hl : l ≠ .dst) (hu : u' = u.setLatch a l)
    (hv : v' = v) : AgreesLatch a l (Machine.succeed (u'.writeOut v')) (Machine.succeed (u.writeOut v)) := by
  subst hu hv
  cases l with
  | dst => exact absurd rfl hl
  | _ => rfl

theorem AgreesLatch.withPad {pad : BitVec 2} {s : State} {k' k : Pad → Result}
    (h : ∀ p, AgreesLatch a l (k' p) (k p)) : AgreesLatch a l (withPad pad (s.setLatch a l) k') (withPad pad s k) := by
  unfold Machine.withPad
  split
  · exact h _
  · exact .raiseError ..

theorem AgreesLatch.encInput {p : Pad} {s : State} {k' k : List Byte → Result}
    (h : ∀ d, AgreesLatch a .aux (k' d) (k d)) :
    AgreesLatch a .aux (encInput p (s.setLatch a .aux) k') (encInput p s k) := .check rfl (.check rfl (h _))

theorem AgreesLatch.decInput {s : State} {k' k : List Byte → Result} (h : ∀ d, AgreesLatch a .aux (k' d) (k d)) :
    AgreesLatch a .aux (decInput (s.setLatch a .aux) k') (decInput s k) := .check rfl (.check rfl (h _))

theorem AgreesLatch.decOutput {p : Pad} {u' u : State} {out' out : List Byte} (hl : l ≠ .dst)
    (hu : u' = u.setLatch a l) (hout : out' = out) :
    AgreesLatch a l (decOutput p u' out') (decOutput p u out) := by
  subst hu hout
  unfold Machine.decOutput
  split
  · exact .output hl rfl rfl
  · exact .raiseError ..

/-- KEY_LOAD uses SRCL and LENL only. -/
theorem execKeyLoad_agreesLatch (s : State) (hl : l = .dst ∨ l = .aux) :
    AgreesLatch a l (execKeyLoad (s.setLatch a l)) (execKeyLoad s) := by
  have hcount : (s.setLatch a l).count = s.count := by rcases hl with rfl | rfl <;> rfl
  have hsrc : (s.setLatch a l).srcValid s.count = s.srcValid s.count := by rcases hl with rfl | rfl <;> rfl
  unfold execKeyLoad
  rw [hcount]
  split
  · exact .raiseError ..
  · exact .check hsrc (.succeed (by rcases hl with rfl | rfl <;> rfl))

/-- STATE_READ uses DSTL only. -/
theorem execStateRead_agreesLatch (sel : BitVec 4) (s : State) (hl : l ≠ .dst) :
    AgreesLatch a l (execStateRead sel (s.setLatch a l)) (execStateRead sel s) := by
  have hreg : (s.setLatch a l).contextRegister sel = s.contextRegister sel := by cases l <;> rfl
  have hdst : (s.setLatch a l).dstValid 16 = s.dstValid 16 := by
    cases l with
    | dst => exact absurd rfl hl
    | _ => rfl
  unfold execStateRead
  rw [hreg]
  split
  · exact .raiseError ..
  · exact .check hdst (.output hl rfl rfl)

theorem exec_agreesLatch_src {i : Instr} (s : State) (hi : ignoresSrc i) :
    AgreesLatch a .src (exec i (s.setLatch a .src)) (exec i s) := by
  rcases hi with rfl | rfl | ⟨r, rfl⟩ | ⟨r, rfl⟩ | rfl
  · exact .succeed rfl
  · exact .succeed rfl
  · exact .check rfl (.check rfl (.check rfl (.output nofun rfl rfl)))
  · exact execStateRead_agreesLatch r s nofun
  · exact .check rfl (.check rfl (.output nofun rfl rfl))

theorem exec_agreesLatch_dst {i : Instr} (s : State) (hi : ignoresDst i) :
    AgreesLatch a .dst (exec i (s.setLatch a .dst)) (exec i s) := by
  rcases hi with rfl | rfl | rfl | rfl | rfl | rfl | rfl | rfl
  · exact .succeed rfl
  · exact execKeyLoad_agreesLatch s (.inl rfl)
  · exact .succeed rfl
  · exact .check rfl (.succeed rfl)
  · exact .check rfl (.succeed rfl)
  · exact .check rfl (.check rfl (.succeed rfl))
  · exact .check rfl (.succeed rfl)
  · exact .check rfl (.check rfl (.succeed rfl))

theorem exec_agreesLatch_len {i : Instr} (s : State) (hi : ignoresLen i) :
    AgreesLatch a .len (exec i (s.setLatch a .len)) (exec i s) := by
  rcases hi with rfl | rfl | ⟨r, rfl⟩ | ⟨r, rfl⟩ | rfl | rfl | rfl | rfl | rfl
  · exact .succeed rfl
  · exact .succeed rfl
  · exact .check rfl (.check rfl (.check rfl (.output nofun rfl rfl)))
  · exact execStateRead_agreesLatch r s nofun
  · exact .check rfl (.output nofun rfl rfl)
  · exact .check rfl (.succeed rfl)
  · exact .check rfl (.succeed rfl)
  · exact .check rfl (.check rfl (.succeed rfl))
  · exact .check rfl (.check rfl (.output nofun rfl rfl))

theorem exec_agreesLatch_aux {i : Instr} (s : State) (hi : ignoresAux i) :
    AgreesLatch a .aux (exec i (s.setLatch a .aux)) (exec i s) := by
  obtain ⟨hgf8, hgf128, hinit⟩ := hi
  cases i with
  | gf8Mul => exact absurd rfl hgf8
  | gf128Mul => exact absurd rfl hgf128
  | ghashInit => exact absurd rfl hinit
  | nop | keyClear => exact .succeed rfl
  | keyLoad => exact execKeyLoad_agreesLatch s (.inr rfl)
  | stateRead sel => exact execStateRead_agreesLatch sel s nofun
  | sboxFwd | sboxInv => exact .check rfl (.output nofun rfl rfl)
  | cbcSetiv | ctrSetctr => exact .check rfl (.succeed rfl)
  | xtsSettweak | ghashUpdate => exact .check rfl (.check rfl (.succeed rfl))
  | ghashFinal => exact .check rfl (.check rfl (.output nofun rfl rfl))
  | ksRead | blkEnc | blkDec | ctrXor => exact .check rfl (.check rfl (.check rfl (.output nofun rfl rfl)))
  | xtsEnc | xtsDec => exact .check rfl (.check rfl (.check rfl (.check rfl (.output nofun rfl rfl))))
  | ecbEnc => exact .withPad fun _ => .check rfl (.encInput fun _ => .output nofun rfl rfl)
  | ecbDec => exact .withPad fun _ => .check rfl (.decInput fun _ => .decOutput nofun rfl rfl)
  | cbcEnc | xexEnc => exact .withPad fun _ => .check rfl (.check rfl (.encInput fun _ => .output nofun rfl rfl))
  | cbcDec | xexDec => exact .withPad fun _ => .check rfl (.check rfl (.decInput fun _ => .decOutput nofun rfl rfl))

end

/-- Settles O21: no check and no value of a command is of a latch it ignores, and every update keeps the latch. -/
theorem unusedOperandsAreIgnored : Obligations.UnusedOperandsAreIgnored := fun _ s _ =>
  ⟨exec_agreesLatch_src s, exec_agreesLatch_dst s, exec_agreesLatch_len s, exec_agreesLatch_aux s, fun _ => rfl⟩

/-! ## The interrupt -/

theorem irq_of_done_false {s : State} (h : s.done = false) : s.irq = false := Bool.and_eq_false_iff.2 (.inr h)

theorem irq_of_exec {i : Instr} {s t : State} (h : exec i s = .next t) : t.irq = s.ie := by
  obtain ⟨u, hu, -, hdone⟩ := everyCommandCompletes i s
  obtain rfl : u = t := Host.Outcome.next.inj (hu.symm.trans h)
  obtain ⟨hie, -⟩ := commandsKeepTheHostSide i s u h
  rw [State.irq, hdone, hie, Bool.and_true]

/-- Settles O14: completion sets DONE, which an issue, a STATUS write and a soft reset clear. -/
theorem irqFollowsCompletionAndEnable : Obligations.IrqFollowsCompletionAndEnable := by
  refine ⟨fun _ => Bool.and_eq_true_iff, fun _ _ _ => irq_of_exec, fun s v =>
    ⟨fun hbusy => ?_, fun hv => ?_, fun hv => ?_, fun hv => ?_⟩⟩
  · have hissue : s.writeRegister 0x0C v = s.issue v := if_neg (Bool.eq_false_iff.1 hbusy)
    exact hissue ▸ irq_of_done_false (issue_done s v)
  · have hdone : (s.writeRegister 0x08 v).done = (s.done && !v.getLsbD 1) := rfl
    exact irq_of_done_false (by rw [hdone, hv, Bool.not_true, Bool.and_false])
  · have hreset : s.writeRegister 0x04 v = s.softReset := if_pos hv
    exact hreset ▸ irq_of_done_false rfl
  · have hie : s.writeRegister 0x04 v = { s with ie := v.getLsbD 0 } := if_neg (Bool.eq_false_iff.1 hv)
    exact hie ▸ rfl

end Sys2Proof.Machine

/-! # The two cores of the cipher are inverse -/

namespace Sys2Proof

/-- The part of a round that uses no round key and that both cores undo first: SubBytes and ShiftRows (R230). -/
def substitute (s : Block) : Block := shiftRows (subBytes s)

theorem invSubBytes_invShiftRows_substitute (s : Block) : invSubBytes (invShiftRows (substitute s)) = s := by
  rw [substitute, invShiftRows_shiftRows, invSubBytes_subBytes]

theorem substitute_invSubBytes_invShiftRows (s : Block) : substitute (invSubBytes (invShiftRows s)) = s := by
  rw [substitute, subBytes_invSubBytes, shiftRows_invShiftRows]

/-- A middle round of R231 undoes one of R230, where the substitution of the round after it stands before it. -/
theorem decRound_substitute_encRound (k s : Block) : decRound k (substitute (encRound k s)) = substitute s := by
  rw [decRound, invSubBytes_invShiftRows_substitute, encRound, addRoundKey_addRoundKey, invMixColumns_mixColumns,
    substitute]

/-- The same in the other direction. -/
theorem substitute_encRound_decRound (k s : Block) :
    substitute (encRound k (invSubBytes (invShiftRows (decRound k s)))) = s := by
  have hround : encRound k (invSubBytes (invShiftRows (decRound k s))) = invSubBytes (invShiftRows s) := by
    rw [encRound, subBytes_invSubBytes, shiftRows_invShiftRows, decRound, mixColumns_invMixColumns,
      addRoundKey_addRoundKey]
  rw [hround, substitute_invSubBytes_invShiftRows]

/-- The middle rounds of R231, in their reverse order, undo those of R230. -/
theorem foldl_decRound_substitute_foldl_encRound (key : Nat → Block) (rs : List Nat) (s : Block) :
    rs.reverse.foldl (fun s r => decRound (key r) s)
      (substitute (rs.foldl (fun s r => encRound (key r) s) s)) = substitute s := by
  induction rs generalizing s with
  | nil => rfl
  | cons r rs ih => rw [List.reverse_cons, List.foldl_concat, List.foldl_cons, ih, decRound_substitute_encRound]

/-- The middle rounds of R230 undo those of R231. -/
theorem substitute_foldl_encRound_foldl_decRound (key : Nat → Block) (rs : List Nat) (s : Block) :
    substitute (rs.foldl (fun s r => encRound (key r) s)
      (invSubBytes (invShiftRows (rs.reverse.foldl (fun s r => decRound (key r) s) s)))) = s := by
  induction rs using List.reverseRecOn generalizing s with
  | nil => exact substitute_invSubBytes_invShiftRows s
  | append_singleton rs r ih =>
    have hrounds : rs.foldl (fun s r => encRound (key r) s) (invSubBytes (invShiftRows
        (rs.reverse.foldl (fun s r => decRound (key r) s) (decRound (key r) s)))) =
        invSubBytes (invShiftRows (decRound (key r) s)) :=
      (invSubBytes_invShiftRows_substitute _).symm.trans
        (congrArg (fun b => invSubBytes (invShiftRows b)) (ih (decRound (key r) s)))
    rw [List.reverse_concat, List.foldl_cons, List.foldl_concat, hrounds, substitute_encRound_decRound]

theorem decryptCore_encryptCore (rk : List Block) (nr : Nat) (b : Block) :
    decryptCore rk nr (encryptCore rk nr b) = b := by
  dsimp only [decryptCore, encryptCore]
  rw [addRoundKey_addRoundKey, ← substitute, foldl_decRound_substitute_foldl_encRound (roundKey rk),
    invSubBytes_invShiftRows_substitute, addRoundKey_addRoundKey]

theorem encryptCore_decryptCore (rk : List Block) (nr : Nat) (b : Block) :
    encryptCore rk nr (decryptCore rk nr b) = b := by
  dsimp only [decryptCore, encryptCore]
  rw [addRoundKey_addRoundKey, ← substitute, substitute_foldl_encRound_foldl_decRound (roundKey rk),
    addRoundKey_addRoundKey]

/-- Settles O53: each round of one core undoes the round of the other that has its round key. -/
theorem cipherCoresAreInverse : Obligations.CipherCoresAreInverse := fun rk nr b =>
  ⟨decryptCore_encryptCore rk nr b, encryptCore_decryptCore rk nr b⟩

end Sys2Proof

/-! # STATE_READ -/

namespace Sys2Proof.Machine

theorem lengthsBlock_toBytes (g : GhashContext) :
    g.lengthsBlock.toBytes = be64 (8 * g.alen.toNat) ++ be64 (8 * g.dlen.toNat) :=
  Block.toBytes_ofBytes _ (by simp [be64])

/-- The selectors 8 to 15 are reserved (R124). -/
theorem contextRegister_reserved (s : State) {sel : BitVec 4} (h : 8 ≤ sel.toNat) : s.contextRegister sel = none := by
  unfold State.contextRegister
  split
  case h_9 => rfl
  all_goals omega

/-- The bytes of the registers of the selectors 0 to 7, in order (R124). -/
theorem contextRegister_of_lt (s : State) {sel : BitVec 4} (h : sel.toNat < 8) :
    ∃ v, s.contextRegister sel = some v ∧
      v.toBytes = [s.cbc.cv.toBytes, s.ctr.cnt.toBytes, s.ctr.ksbuf.toBytes, s.xts.twk.toBytes, s.ghash.h.toBytes,
        s.ghash.acc.toBytes, s.ghash.buf.toBytes, s.ghash.lengthsBlock.toBytes].getD sel.toNat [] := by
  unfold State.contextRegister
  generalize sel.toNat = n at h
  interval_cases n <;> exact ⟨_, rfl, rfl⟩

theorem execStateRead_reserved {s : State} {sel : BitVec 4} (h : s.contextRegister sel = none) :
    execStateRead sel s = .next (s.complete .illegalCmd) := by
  rw [execStateRead, h]
  rfl

/-- With a selector that names a register, the range is left to check (R256). -/
theorem execStateRead_eq_check {s : State} {sel : BitVec 4} {v : Block} (h : s.contextRegister sel = some v) :
    execStateRead sel s = check (s.dstValid 16) .badAddress s (succeed (s.writeOut v.toBytes)) := by
  rw [execStateRead, h]

/-- Settles O31: the table of R124, then the check of the range and the register at DSTL. -/
theorem stateReadWritesTheContextRegister : Obligations.StateReadWritesTheContextRegister := by
  refine ⟨by decide, fun sel s hwf => ⟨fun h => ?_, fun h => ?_⟩⟩
  · exact execStateRead_reserved (contextRegister_reserved s h)
  · obtain ⟨v, hv, hbytes⟩ := contextRegister_of_lt s h
    rw [← lengthsBlock_toBytes, ← hbytes]
    exact ⟨(execStateRead_eq_check hv).trans ∘ check_of_false,
      fun hd => ⟨_, (execStateRead_eq_check hv).trans (check_of_true hd), outputs_writeOut s _ hwf⟩⟩

end Sys2Proof.Machine

/-! # The least cause of an error -/

namespace Sys2Proof.Machine

/-- The end of a command that reports the least of the causes that are there (R403). -/
def LeastCause (i : Instr) (s t : State) : Prop :=
  (t.err = .ok ↔ ∀ c, ¬errorApplies i s c) ∧
  (t.err ≠ .ok → errorApplies i s t.err ∧ ∀ c, errorApplies i s c → t.err.code.toNat ≤ c.code.toNat)

/-- With the causes `cs` left in rising order, and no other cause there, the result reports the least of them. -/
def ReportsLeast (i : Instr) (s : State) (cs : List ErrCode) (r : Result) : Prop :=
  cs.Pairwise (·.code.toNat ≤ ·.code.toNat) → (∀ c, errorApplies i s c → c ∈ cs) → ∀ t, r = .next t → LeastCause i s t

/-! ## The rules of the checks -/

theorem Pad.eq_field_of_ofField? {pad : BitVec 2} {p : Pad} (h : Pad.ofField? pad = some p) : pad = p.field := by
  cases p <;> revert pad <;> decide

@[simp] theorem Pad.field_eq_zero_iff (p : Pad) : p.field = 0#2 ↔ p = .noPad := by cases p <;> decide

@[simp] theorem Pad.field_eq_one_iff (p : Pad) : p.field = 1#2 ↔ p = .pkcs7 := by cases p <;> decide

theorem valid_eq_false_iff (s : State) (a n : Nat) : s.valid a n = false ↔ n ≠ 0 ∧ s.memSize < a + n := by
  simp [State.valid]

section

variable {i : Instr} {s : State} {cs : List ErrCode}

theorem ReportsLeast.succeed {u : State} : ReportsLeast i s [] (succeed u) := by
  intro _ hcs t ht
  obtain rfl := (succeed_next ..).1 ht
  exact ⟨iff_of_true rfl fun c hc => List.not_mem_nil (hcs c hc), absurd rfl⟩

/-- An error whose cause is there and stands before the other causes. -/
theorem ReportsLeast.raiseError {u : State} {code : ErrCode} (hcode : errorApplies i s code) :
    ReportsLeast i s (code :: cs) (raiseError code u) := by
  intro hsorted hcs t ht
  obtain rfl := (raiseError_next ..).1 ht
  have hok : code ≠ .ok := by
    rintro rfl
    exact hcode
  refine ⟨iff_of_false hok fun h => h code hcode, fun _ => ⟨hcode, fun c hc => ?_⟩⟩
  rcases List.mem_cons.1 (hcs c hc) with rfl | hmem
  · exact le_rfl
  · exact List.rel_of_pairwise_cons hsorted hmem

/-- A cause that is not there need not be looked for. -/
theorem ReportsLeast.skip {code : ErrCode} {r : Result} (hcode : ¬errorApplies i s code) (h : ReportsLeast i s cs r) :
    ReportsLeast i s (code :: cs) r := fun hsorted hcs =>
  h hsorted.of_cons fun c hc => (List.mem_cons.1 (hcs c hc)).resolve_left fun heq => hcode (heq ▸ hc)

/-- A check of the first cause that is left fails exactly when that cause is there. -/
theorem ReportsLeast.check {ok : Bool} {code : ErrCode} {u : State} {k : Result}
    (hok : ok = false ↔ errorApplies i s code) (hk : ReportsLeast i s cs k) :
    ReportsLeast i s (code :: cs) (check ok code u k) := by
  cases ok with
  | true => exact .skip (fun hc => nomatch hok.2 hc) hk
  | false => exact .raiseError (hok.1 rfl)

theorem ReportsLeast.withPad {pad : BitVec 2} {k : Pad → Result}
    (hill : errorApplies i s .illegalCmd ↔ padLegal pad = false)
    (hk : ∀ p, pad = p.field → ReportsLeast i s cs (k p)) :
    ReportsLeast i s (.illegalCmd :: cs) (withPad pad s k) := by
  unfold Machine.withPad
  split
  · next p hp =>
    obtain rfl := Pad.eq_field_of_ofField? hp
    exact .skip (fun hc => by cases p <;> cases hill.1 hc) (hk p rfl)
  · next hp =>
    refine .raiseError (hill.2 (Bool.eq_false_iff.2 fun hlegal => ?_))
    simpa [hp] using isSome_ofField? pad hlegal

/-- Of whole blocks, PKCS#7 unpadding fails with PAD_BAD_PADDING only (R302). -/
theorem unpad1_bytesOf_error {bs : List Block} {e : ErrCode} (h : unpad1 (bytesOf bs) = .error e) :
    e = .padBadPadding := by
  rw [unpad1, if_neg (by simp)] at h
  dsimp only at h
  split_ifs at h <;> cases h <;> rfl

theorem exists_unpadBytes_bytesOf_error_iff (p : Pad) (bs : List Block) :
    (∃ e, unpadBytes p (bytesOf bs) = .error e) ↔ p = .pkcs7 ∧ unpad1 (bytesOf bs) = .error .padBadPadding := by
  cases p with
  | noPad => simp [unpadBytes]
  | pkcs7 => exact ⟨fun ⟨e, he⟩ => ⟨rfl, unpad1_bytesOf_error he ▸ he⟩, fun ⟨_, he⟩ => ⟨_, he⟩⟩

/-- The output of a decrypting mode: a padding failure is the last cause (R305). -/
theorem ReportsLeast.decOutput {p : Pad} {u : State} {bs : List Block}
    (hpad : errorApplies i s .padBadPadding ↔ p = .pkcs7 ∧ unpad1 (bytesOf bs) = .error .padBadPadding) :
    ReportsLeast i s [.padBadPadding] (decOutput p u (bytesOf bs)) := by
  rw [← exists_unpadBytes_bytesOf_error_iff] at hpad
  unfold Machine.decOutput
  split
  · next d hd =>
    refine .skip (fun hc => ?_) .succeed
    obtain ⟨e, he⟩ := hpad.1 hc
    cases hd.symm.trans he
  · next e he => exact .raiseError (hpad.2 ⟨e, he⟩)

/-! ## The causes of each command -/

theorem noKey_iff (h : i.needsKey = true) : s.keyv = false ↔ errorApplies i s .noKey := by
  simp [errorApplies, h]

theorem badAddress_iff : errorApplies i s .badAddress ↔ ∃ r ∈ commandRanges i s, s.valid r.1 r.2 = false := by
  simp only [errorApplies, valid_eq_false_iff]

section

variable {a b c n m k : Nat}

/-- The check of a command with one range (R404). -/
theorem badAddress_iff_range (h : commandRanges i s = [(a, n)]) :
    s.valid a n = false ↔ errorApplies i s .badAddress := by
  simp [badAddress_iff, h]

/-- The check of a command with two ranges. -/
theorem badAddress_iff_two (h : commandRanges i s = [(a, n), (b, m)]) :
    (s.valid a n && s.valid b m) = false ↔ errorApplies i s .badAddress := by
  rw [badAddress_iff, Bool.and_eq_false_iff]
  simp [h]

/-- The check of a command with three ranges. -/
theorem badAddress_iff_three (h : commandRanges i s = [(a, n), (b, m), (c, k)]) :
    (s.valid a n && s.valid b m && s.valid c k) = false ↔ errorApplies i s .badAddress := by
  rw [badAddress_iff, Bool.and_eq_false_iff, Bool.and_eq_false_iff]
  simp [h, or_assoc]

end

/-- The input of an encrypting mode (R303). -/
theorem ReportsLeast.encInput {p : Pad} {k : List Byte → Result}
    (hi : i = .ecbEnc p.field ∨ i = .cbcEnc p.field ∨ i = .xexEnc p.field) (hk : ∀ d, ReportsLeast i s [] (k d)) :
    ReportsLeast i s [.badLength, .badAddress] (encInput p s k) := by
  have hlen : errorApplies i s .badLength ↔ p = .noPad ∧ s.count % 16 ≠ 0 := by
    rcases hi with rfl | rfl | rfl <;> simp [errorApplies]
  have hranges : commandRanges i s = [(s.srcAddr, s.count), (s.dstAddr, paddedLength p s.count)] := by
    rcases hi with rfl | rfl | rfl <;> cases p <;> rfl
  refine .check ?_ <| .check (badAddress_iff_two hranges) (hk _)
  rw [hlen]
  cases p <;> simp

/-- The input of a decrypting mode (R304). -/
theorem ReportsLeast.decInput {pad : BitVec 2} {k : List Byte → Result}
    (hi : i = .ecbDec pad ∨ i = .cbcDec pad ∨ i = .xexDec pad) (hk : ReportsLeast i s cs (k s.srcBytes)) :
    ReportsLeast i s (.badAddress :: .padBadData :: cs) (decInput s k) := by
  have hdata : errorApplies i s .padBadData ↔ s.count % 16 ≠ 0 := by
    rcases hi with rfl | rfl | rfl <;> simp [errorApplies]
  have hranges : commandRanges i s = [(s.srcAddr, s.count), (s.dstAddr, s.count)] := by
    rcases hi with rfl | rfl | rfl <;> rfl
  refine .check (badAddress_iff_two hranges) <| .check ?_ hk
  rw [hdata]
  simp

end

/-- The causes a command can have, in rising order. -/
def causesOf : Instr → List ErrCode
  | .nop | .keyClear => []
  | .keyLoad => [.badLength, .badAddress]
  | .ksRead _ => [.noKey, .badIndex, .badAddress]
  | .stateRead _ => [.illegalCmd, .badAddress]
  | .gf8Mul | .sboxFwd | .sboxInv | .gf128Mul | .cbcSetiv | .ctrSetctr | .ghashInit => [.badAddress]
  | .blkEnc | .blkDec => [.noKey, .badLength, .badAddress]
  | .ecbEnc _ => [.illegalCmd, .noKey, .badLength, .badAddress]
  | .cbcEnc _ | .xexEnc _ => [.illegalCmd, .noKey, .badState, .badLength, .badAddress]
  | .ecbDec _ => [.illegalCmd, .noKey, .badAddress, .padBadData, .padBadPadding]
  | .cbcDec _ | .xexDec _ => [.illegalCmd, .noKey, .badState, .badAddress, .padBadData, .padBadPadding]
  | .ctrXor => [.noKey, .badState, .badAddress]
  | .xtsSettweak => [.noKey, .badAddress]
  | .xtsEnc | .xtsDec => [.noKey, .badState, .badLength, .badAddress]
  | .ghashUpdate | .ghashFinal => [.badState, .badAddress]

theorem causesOf_sorted (i : Instr) : (causesOf i).Pairwise (·.code.toNat ≤ ·.code.toNat) := by
  cases i <;> simp only [causesOf] <;> decide

theorem mem_causesOf {i : Instr} {s : State} {c : ErrCode} (h : errorApplies i s c) : c ∈ causesOf i := by
  cases c with
  | ok => exact h.elim
  | illegalCmd =>
    cases i with
    | stateRead | ecbEnc | ecbDec | cbcEnc | cbcDec | xexEnc | xexDec => simp [causesOf]
    | _ => cases h
  | noKey =>
    obtain ⟨hneeds, -⟩ := h
    rcases (needsKey_iff i).1 hneeds with ⟨_, rfl⟩ | rfl | rfl | ⟨_, rfl | rfl⟩ | ⟨_, rfl | rfl⟩ | rfl | rfl |
      ⟨_, rfl | rfl⟩ | rfl | rfl <;> simp [causesOf]
  | badState =>
    rcases h with ⟨⟨_, rfl | rfl⟩, -⟩ | ⟨rfl, -⟩ | ⟨⟨_, rfl | rfl⟩ | rfl | rfl, -⟩ | ⟨rfl | rfl, -⟩ <;>
      simp [causesOf]
  | badIndex =>
    obtain ⟨_, rfl, -⟩ := h
    simp [causesOf]
  | badLength =>
    rcases h with ⟨rfl, -⟩ | ⟨rfl | rfl, -⟩ | ⟨rfl | rfl | rfl, -⟩ | ⟨rfl | rfl, -⟩ <;> simp [causesOf]
  | badAddress =>
    obtain ⟨r, hr, -⟩ := h
    cases i with
    | nop | keyClear => cases hr
    | _ => simp [causesOf]
  | padBadData =>
    obtain ⟨⟨_, rfl | rfl | rfl⟩, -⟩ := h <;> simp [causesOf]
  | padBadPadding =>
    rcases h with ⟨rfl, -⟩ | ⟨rfl, -⟩ | ⟨rfl, -⟩ <;> simp [causesOf]

/-! ## The checks of each command -/

section

variable {s : State} {p : Pad}

theorem execKeyLoad_reportsLeast : ReportsLeast .keyLoad s [.badLength, .badAddress] (execKeyLoad s) := by
  have hlen : errorApplies .keyLoad s .badLength ↔ ¬(s.count = 16 ∨ s.count = 24 ∨ s.count = 32) := by
    simp [errorApplies]
  by_cases h : s.count = 16 ∨ s.count = 24 ∨ s.count = 32
  · obtain ⟨size, hsize⟩ := KeySize.exists_eq_bytes_iff.2 h
    rw [execKeyLoad_of_size (hsize ▸ size.ofBytes?_bytes)]
    exact .skip (fun hc => hlen.1 hc h) (.check (badAddress_iff_range rfl) .succeed)
  · rw [execKeyLoad, KeySize.ofBytes?_eq_none h]
    exact .raiseError (hlen.2 h)

theorem execStateRead_reportsLeast {sel : BitVec 4} :
    ReportsLeast (.stateRead sel) s [.illegalCmd, .badAddress] (execStateRead sel s) := by
  have hill : errorApplies (.stateRead sel) s .illegalCmd ↔ 8 ≤ sel.toNat := by
    simp only [errorApplies, Instr.wellFormed, selLegal, decide_eq_false_iff_not]
    omega
  rcases Nat.lt_or_ge sel.toNat 8 with hlt | hge
  · obtain ⟨v, hv, -⟩ := contextRegister_of_lt s hlt
    rw [execStateRead_eq_check hv]
    exact .skip (fun hc => Nat.not_le.2 hlt (hill.1 hc)) (.check (badAddress_iff_range rfl) .succeed)
  · rw [execStateRead, contextRegister_reserved s hge]
    exact .raiseError (hill.2 hge)

end

theorem exec_reportsLeast (i : Instr) (s : State) : ReportsLeast i s (causesOf i) (exec i s) := by
  cases i with
  | nop | keyClear => exact .succeed
  | keyLoad => exact execKeyLoad_reportsLeast
  | stateRead sel => exact execStateRead_reportsLeast
  | gf8Mul | gf128Mul => exact .check (badAddress_iff_three rfl) .succeed
  | sboxFwd | sboxInv | ghashInit => exact .check (badAddress_iff_two rfl) .succeed
  | cbcSetiv | ctrSetctr => exact .check (badAddress_iff_range rfl) .succeed
  | xtsSettweak => exact .check (noKey_iff rfl) <| .check (badAddress_iff_range rfl) .succeed
  | ghashUpdate | ghashFinal =>
    exact .check (by simp [errorApplies]) <| .check (badAddress_iff_range rfl) .succeed
  | ksRead =>
    exact .check (noKey_iff rfl) <| .check (by simp [errorApplies]) <|
      .check (badAddress_iff_range rfl) .succeed
  | blkEnc | blkDec | ctrXor =>
    exact .check (noKey_iff rfl) <| .check (by simp [errorApplies]) <|
      .check (badAddress_iff_two rfl) .succeed
  | xtsEnc | xtsDec =>
    exact .check (noKey_iff rfl) <| .check (by simp [errorApplies]) <|
      .check (by simp [errorApplies]) <| .check (badAddress_iff_two rfl) .succeed
  | ecbEnc =>
    refine .withPad .rfl ?_
    rintro p rfl
    exact .check (noKey_iff rfl) <| .encInput (.inl rfl) fun _ => .succeed
  | cbcEnc =>
    refine .withPad .rfl ?_
    rintro p rfl
    exact .check (noKey_iff rfl) <| .check (by simp [errorApplies]) <| .encInput (.inr (.inl rfl)) fun _ => .succeed
  | xexEnc =>
    refine .withPad .rfl ?_
    rintro p rfl
    exact .check (noKey_iff rfl) <| .check (by simp [errorApplies]) <| .encInput (.inr (.inr rfl)) fun _ => .succeed
  | ecbDec =>
    refine .withPad .rfl ?_
    rintro p rfl
    exact .check (noKey_iff rfl) <| .decInput (.inl rfl) <| .decOutput (by simp [errorApplies])
  | cbcDec =>
    refine .withPad .rfl ?_
    rintro p rfl
    exact .check (noKey_iff rfl) <| .check (by simp [errorApplies]) <| .decInput (.inr (.inl rfl)) <|
      .decOutput (by simp [errorApplies])
  | xexDec =>
    refine .withPad .rfl ?_
    rintro p rfl
    exact .check (noKey_iff rfl) <| .check (by simp [errorApplies]) <| .decInput (.inr (.inr rfl)) <|
      .decOutput (by simp [errorApplies])

/-- Settles O26: the checks of a command stand in the order of its causes. -/
theorem errorCodeIsTheSmallestCause : Obligations.ErrorCodeIsTheSmallestCause := fun i s t h =>
  exec_reportsLeast i s (causesOf_sorted i) (fun _ => mem_causesOf) t h

end Sys2Proof.Machine

/-! # The stream of CTR_XOR split in two -/

namespace Sys2Proof.Machine

/-- KSBUF is the leftover keystream after zeros (R364). -/
theorem ctrContext_ext {enc : Block → Block} {c c' : CtrContext} (hinv : c.Inv) (hinv' : c'.Inv) (hcnt : c.cnt = c'.cnt)
    (hkslen : c.kslen = c'.kslen) (hctrv : c.ctrv = c'.ctrv)
    (hkeystream : ∀ i, keystreamByte enc c i = keystreamByte enc c' i) : c = c' := by
  have hksbuf : c.ksbuf = c'.ksbuf := by
    refine eq_of_get fun i hi => ?_
    rcases Nat.lt_or_ge i (16 - c.kslen.toNat) with hlt | hge
    · rw [hinv i hlt, hinv' i (hkslen ▸ hlt)]
    · obtain ⟨j, rfl⟩ := Nat.exists_eq_add_of_le hge
      have hj : j < c.kslen.toNat := by omega
      rw [← keystreamByte_of_lt enc hj, hkeystream, keystreamByte_of_lt enc (hkslen ▸ hj), hkslen]
  cases c
  cases c'
  simp_all

/-- The string and the context of a stream are determined by where it starts and what it is of. -/
theorem CtrStreams.unique {enc : Block → Block} {c : CtrContext} {d : List Byte} {r q : List Byte × CtrContext}
    (hr : CtrStreams enc c d r) (hq : CtrStreams enc c d q) (hrinv : r.2.Inv) (hqinv : q.2.Inv) : r = q := by
  refine Prod.ext (List.ext_getElem (hr.length.trans hq.length.symm) fun i hi hi' => ?_) ?_
  · have hid : i < d.length := hr.length ▸ hi
    rw [← List.getD_eq_getElem _ 0 hi, ← List.getD_eq_getElem _ 0 hi', hr.byte i hid, hq.byte i hid]
  · exact ctrContext_ext (enc := enc) hrinv hqinv (hr.cnt.trans hq.cnt.symm)
      (BitVec.eq_of_toNat_eq (hr.kslen.trans hq.kslen.symm)) (hr.ctrv.trans hq.ctrv.symm)
      fun i => (hr.keystream i).trans (hq.keystream i).symm

/-- Settles O47: both sides are the stream of the whole string from the context `c`. -/
theorem ctrStreamSplitsAnywhere : Obligations.CtrStreamSplitsAnywhere := by
  intro enc c x y hinv
  have hx := (ctrStream_inv enc x hinv).1
  exact (ctrStreams_ctrStream enc c (x ++ y)).unique
    ((ctrStreams_ctrStream enc c x).append (ctrStreams_ctrStream enc _ y))
    (ctrStream_inv enc _ hinv).1 (ctrStream_inv enc y hx).1

end Sys2Proof.Machine

/-! # The GHASH of a sequence of commands -/

namespace Sys2Proof.Machine

/-- The last block of a padded string is its tail, if there is one. -/
theorem paddedBlocksOf_eq (d : List Byte) :
    paddedBlocksOf d = blocksOf d ++ if d.length % 16 = 0 then [] else [Block.ofBytes (tailOf d)] := by
  rw [paddedBlocksOf, blocksOf, tailOf]
  split
  · next h =>
    have hlen : (d.length + 15) / 16 = d.length / 16 := by omega
    rw [hlen, List.append_nil]
  · next h =>
    have hlen : (d.length + 15) / 16 = d.length / 16 + 1 := by omega
    rw [hlen, List.range_succ, List.map_append, List.map_singleton]

/-- The data bytes are absorbed whatever the count of them is (R381). -/
theorem foldl_ghashByte_dlen (g : GhashContext) (n : Count) (d : List Byte) :
    d.foldl ghashByte { g with dlen := n } = { d.foldl ghashByte g with dlen := n } := by
  induction d generalizing g with
  | nil => rfl
  | cons x d ih =>
    have hbyte : ghashByte { g with dlen := n } x = { ghashByte g x with dlen := n } := by
      dsimp only [ghashByte]
      split <;> rfl
    rw [List.foldl_cons, hbyte, ih, List.foldl_cons]

theorem ghashData_append (g : GhashContext) (d e : List Byte) : ghashData (ghashData g d) e = ghashData g (d ++ e) := by
  simp only [ghashData, foldl_ghashByte_dlen, List.foldl_append, List.length_append, BitVec.ofNat_add,
    BitVec.add_assoc]

theorem ghashData_nil (g : GhashContext) : ghashData g [] = g := by
  simp [ghashData]

/-- The pieces of the data are taken as their concatenation is. -/
theorem foldl_ghashData (g : GhashContext) (pieces : List (List Byte)) :
    pieces.foldl ghashData g = ghashData g pieces.flatten := by
  induction pieces generalizing g with
  | nil => exact (ghashData_nil g).symm
  | cons d pieces ih => rw [List.foldl_cons, ih, ghashData_append, List.flatten_cons]

/-- The data on a fresh context: there is no partial block, and the count is the data's. -/
theorem ghashData_ghashStart (h : Block) (a d : List Byte) : ghashData (ghashStart h a) d =
    GhashContext.absorb { ghashStart h a with dlen := BitVec.ofNat 64 d.length } d := by
  have hcount : (ghashStart h a).dlen + BitVec.ofNat 64 d.length = BitVec.ofNat 64 d.length := BitVec.zero_add _
  rw [ghashData_eq d (ghashInv_empty rfl), hcount]
  rfl

/-- What is absorbed and then flushed is folded as the padded string. -/
theorem ghashFlush_absorb_acc (g : GhashContext) (d : List Byte) :
    (ghashFlush (g.absorb d)).acc = (paddedBlocksOf d).foldl (ghashFold g.h) g.acc := by
  have hblen : BitVec.ofNat 4 (d.length % 16) = 0 ↔ d.length % 16 = 0 := by
    rw [← BitVec.toNat_inj]
    simp
  rw [ghashFlush_eq, paddedBlocksOf_eq, List.foldl_append]
  simp only [GhashContext.absorb, hblen]
  split <;> rfl

theorem ghashFinish_acc (g : GhashContext) :
    (ghashFinish g).acc = ghashFold g.h (ghashFlush g).acc g.lengthsBlock := by
  rw [ghashFinish, ghashFlush_eq]
  rfl

/-- The counts in the lengths block are the lengths mod 2^64, as `be64` takes eight times them (R381, R385). -/
theorem lengthsBlock_ofNat (g : GhashContext) {m n : Nat} (hm : g.alen = BitVec.ofNat 64 m)
    (hn : g.dlen = BitVec.ofNat 64 n) : g.lengthsBlock = Block.ofBytes (be64 (8 * m) ++ be64 (8 * n)) := by
  have hbe64 (k : Nat) : be64 (8 * (BitVec.ofNat 64 k).toNat) = be64 (8 * k) := by
    rw [be64, be64, BitVec.toNat_ofNat, Nat.mul_mod_mod]
  rw [GhashContext.lengthsBlock, hm, hn, hbe64, hbe64]

/-- Settles O51: the pieces are taken as one string, whose padded blocks follow those of the AAD. -/
theorem ghashSequenceIsTheStandardHash : Obligations.GhashSequenceIsTheStandardHash := by
  intro h a pieces
  rw [foldl_ghashData, ghashData_ghashStart, ghashFinish_acc, ghashFlush_absorb_acc, lengthsBlock_ofNat _ rfl rfl,
    List.foldl_append, List.foldl_append]
  rfl

end Sys2Proof.Machine

/-! # The host's accesses, the resets and the host's contract -/

namespace Sys2Proof.Machine

/-! ## The accesses the interface defines -/

theorem registerAccessOk_iff (o n : Nat) : registerAccessOk o n = true ↔ n = 4 ∧ o % 4 = 0 ∧ o < 256 := by
  simp only [registerAccessOk, Bool.and_eq_true, beq_iff_eq, decide_eq_true_eq]
  omega

theorem dmemAccessOk_iff (s : State) (a n : Nat) :
    s.dmemAccessOk a n = true ↔ (n = 1 ∨ n = 2 ∨ n = 4) ∧ a % n = 0 ∧ a + n ≤ s.memSize := by
  simp only [State.dmemAccessOk, Bool.and_eq_true, Bool.or_eq_true, beq_iff_eq, decide_eq_true_eq]
  tauto

/-- A guarded host access while BUSY = 0, or of a state that is not strict, goes on. -/
theorem guardContract_of_false {s t : State} {b : Bool} {f : Fault} (h : (s.strict && s.busy && b) = false) :
    s.guardContract b f t = .next t := (guardContract_next ..).2 ⟨h, rfl⟩

/-- A breach of the host's contract in a strict state is the fault of R405. -/
theorem guardContract_breach {s t : State} {f : Fault} (hb : s.busy = true) (hs : s.strict = true) :
    s.guardContract true f t = .fault f := (guardContract_fault ..).2 ⟨by simp [hb, hs], rfl⟩

section

variable {s : State} {rest : List HostEvent}

theorem step_cmdWrite {w : Word} (h : s.host = .regWrite 0x0C 4 w :: rest) :
    step s = State.guardContract { s with host := rest } true (.cmdWriteWhileBusy w)
      (State.writeCmd { s with host := rest } w) := by
  rw [step_cons h, State.hostStep, if_pos (by decide)]
  rfl

theorem step_dmemWrite {a n : Nat} {v : Word} (h : s.host = .dmemWrite a n v :: rest)
    (hok : s.dmemAccessOk a n = true) :
    step s = State.guardContract { s with host := rest } true (.dmemAccessWhileBusy a n)
      (State.hostWriteDmem { s with host := rest } a n v) := (step_cons h).trans (if_pos hok)

theorem step_dmemRead {a n : Nat} (h : s.host = .dmemRead a n :: rest) (hok : s.dmemAccessOk a n = true) :
    step s = State.guardContract { s with host := rest } true (.dmemAccessWhileBusy a n)
      (State.hostReadDmem { s with host := rest } a n) := (step_cons h).trans (if_pos hok)

end

/-! ## CMD writes and DMEM accesses -/

/-- Settles O6: the guard of the write, then the drop or the issue. -/
theorem cmdWriteIssuesOrIsDropped : Obligations.CmdWriteIssuesOrIsDropped := by
  intro s w rest h
  rw [step_cmdWrite h]
  refine ⟨fun hb hs => guardContract_breach hb hs, fun hb hs => ?_, fun hb => ?_⟩
  · rw [guardContract_of_false (by simp [hs]), State.writeCmd, if_pos hb]
  · have hissue : State.writeCmd { s with host := rest } w = State.issue { s with host := rest } w :=
      if_neg (Bool.eq_false_iff.1 hb)
    rw [guardContract_of_false (by simp [hb]), hissue]
    exact ⟨_, rfl, rfl, rfl, rfl, rfl, rfl, rfl, rfl, rfl, rfl, rfl, rfl⟩

/-- Settles O8: the guard of the access, then the drop. -/
theorem dmemAccessWhileBusyIsDropped : Obligations.DmemAccessWhileBusyIsDropped := by
  intro s a n v rest hb hok
  refine ⟨fun hs h => ?_, fun hs => ⟨fun h => ?_, fun h => ?_⟩⟩
  · rcases h with h | h
    · exact (step_dmemWrite h hok).trans (guardContract_breach hb hs)
    · exact (step_dmemRead h hok).trans (guardContract_breach hb hs)
  · rw [step_dmemWrite h hok, guardContract_of_false (by simp [hs]), State.hostWriteDmem, if_pos hb]
  · rw [step_dmemRead h hok, guardContract_of_false (by simp [hs]), State.hostReadDmem, if_pos hb]

/-- Byte `i` of a value on the little-endian lanes (R84). -/
theorem leBytes_getD_toNat {n i : Nat} (v : Word) (hi : i < n) :
    ((leBytes n v).getD i 0).toNat = v.toNat / 256 ^ i % 256 := by
  have hpow : 256 ^ i = 2 ^ (8 * i) := by rw [Nat.pow_mul]
  simp [leBytes, hi, hpow, Nat.shiftRight_eq_div_pow]

theorem leNat_map_range (f : Nat → Byte) (n : Nat) :
    leNat ((List.range n).map f) = ((List.range n).map fun i => (f i).toNat * 256 ^ i).sum := by
  induction n generalizing f with
  | zero => rfl
  | succ n ih =>
    rw [List.range_succ_eq_map, List.map_cons, List.map_map, leNat_cons, ih, List.map_cons, List.map_map,
      List.sum_cons, ← List.sum_map_mul_left]
    simp [Function.comp_def, Nat.pow_succ', Nat.mul_left_comm]

/-- What a host read returns is wide enough for its bytes. -/
theorem leNat_memRead_lt (s : State) (a : Nat) {n : Nat} (hn : n ≤ 4) : leNat (s.memRead a n) < 2 ^ 32 :=
  calc leNat (s.memRead a n) < 256 ^ n := (leNat_lt _).trans_eq (by rw [memRead_length])
    _ ≤ 256 ^ 4 := Nat.pow_le_pow_right (by decide) hn
    _ = 2 ^ 32 := by decide

/-- Settles O7: the bytes of the lanes, and the bus error of an access that is not defined. -/
theorem hostDmemAccessesAreLittleEndian : Obligations.HostDmemAccessesAreLittleEndian := by
  intro s a n v rest hwf hb
  refine ⟨fun hn ha hin => ?_, fun hbad => ?_⟩
  · have hok : s.dmemAccessOk a n = true := (dmemAccessOk_iff ..).2 ⟨hn, ha, hin⟩
    refine ⟨fun h => ?_, fun h => ?_⟩
    · have hlen : (leBytes n v).length = n := by simp [leBytes]
      obtain ⟨hbytes, hframe⟩ := dmemWritten_memWrite { s with host := rest } a (leBytes n v) hwf
      rw [hlen] at hbytes hframe
      refine ⟨State.memWrite { s with host := rest } a (leBytes n v), ?_, rfl, fun i hi => ?_, hframe⟩
      · rw [step_dmemWrite h hok, guardContract_of_false (by simp [hb]), State.hostWriteDmem,
          if_neg (Bool.eq_false_iff.1 hb)]
      · rw [hbytes i hi, leBytes_getD_toNat v hi]
    · refine ⟨BitVec.ofNat 32 (leNat (s.memRead a n)), ?_, ?_⟩
      · rw [BitVec.toNat_ofNat, Nat.mod_eq_of_lt (leNat_memRead_lt s a (by omega)), State.memRead, leNat_map_range]
      · rw [step_dmemRead h hok, guardContract_of_false (by simp [hb]), State.hostReadDmem,
          if_neg (Bool.eq_false_iff.1 hb)]
        rfl
  · have hok : ¬s.dmemAccessOk a n = true := mt (dmemAccessOk_iff ..).1 hbad
    exact ⟨fun h => (step_cons h).trans (if_neg hok), fun h => (step_cons h).trans (if_neg hok)⟩

/-! ## The resets -/

/-- Settles O15: the power cycle empties DMEM, whose bytes then read as those of a new power-on. -/
theorem resetValuesMeetTheInvariant : Obligations.ResetValuesMeetTheInvariant := by
  refine ⟨fun s rest h => ⟨_, step_cons h, rfl, fun _ => rfl⟩, fun m e hmin hmax => ⟨_, rfl, resetOf_inv ⟨hmin, hmax⟩,
    rfl, rfl, rfl, rfl, rfl, rfl, rfl, rfl, rfl, rfl, rfl, rfl, rfl, rfl, rfl, rfl, rfl,
    roundKey_replicate_zero 15, rfl, rfl, rfl, rfl, rfl, rfl, rfl, rfl, resetOf_inv (by decide)⟩⟩

/-- Settles O16: the write is a soft reset, which is no breach of the contract while BUSY = 1. -/
theorem softResetKeepsOnlyDmem : Obligations.SoftResetKeepsOnlyDmem := by
  intro s v rest h hv
  have hreset : State.writeRegister { s with host := rest } 0x04 v = State.softReset { s with host := rest } :=
    if_pos hv
  have hctrl : (0#31 ++ bit false : Word) = 0 := by decide
  refine ⟨State.softReset { s with host := rest }, ?_, rfl, fun _ => rfl, rfl, rfl, rfl, rfl, hctrl, rfl, rfl⟩
  rw [step_regWrite h (by decide) (by decide) (absurd · (by decide)), hreset]

/-! ## The host's contract -/

/-- The events that break the contract while BUSY = 1 (R460(a), (b)). -/
def HostEvent.needsIdle : HostEvent → Bool
  | .regWrite o _ _ => o == 0x0C
  | .dmemWrite .. | .dmemRead .. => true
  | .regRead .. | .wait | .powerOn => false

/-- The events that clear OVR: a STATUS write, a soft reset or a power cycle (R32, R450, R451). -/
def HostEvent.clearsOvr : HostEvent → Bool
  | .regWrite o _ v => o == 0x08 && v.getLsbD 2 || o == 0x04 && v.getLsbD 31
  | .powerOn => true
  | .dmemWrite .. | .dmemRead .. | .regRead .. | .wait => false

theorem breaksContract_nil {s : State} (h : s.host = []) : s.breaksContract = false := by
  simp [State.breaksContract, h]

theorem breaksContract_cons {s : State} {e : HostEvent} {rest : List HostEvent} (h : s.host = e :: rest) :
    s.breaksContract = (s.busy && e.needsIdle) := by
  rw [State.breaksContract, h]
  cases e with
  | regWrite o n v =>
    by_cases ho : o = 0x0C
    · subst ho
      rfl
    · simp [HostEvent.needsIdle, ho]
  | _ => rfl

/-- The command in flight leaves OVR and the field `strict` alone. -/
theorem coreTurn_keeps {s t : State} (h : s.coreTurn = .next t) : t.ovr = s.ovr ∧ t.strict = s.strict := by
  rcases coreTurn_next h with ⟨-, rfl⟩ | ⟨-, -, rfl⟩ | ⟨-, i, -, hi⟩
  · exact ⟨rfl, rfl⟩
  · exact ⟨rfl, rfl⟩
  · obtain ⟨-, hovr, -, -, -, -, -, -, -, -, -, -, -, hstrict, -⟩ := commandsKeepTheHostSide i s t hi
    exact ⟨hovr, hstrict⟩

theorem writeCtrl_keeps (s : State) (v : Word) :
    (s.writeCtrl v).ovr = (s.ovr && !v.getLsbD 31) ∧ (s.writeCtrl v).strict = s.strict := by
  unfold State.writeCtrl
  split
  · next hv => exact ⟨by rw [hv, Bool.not_true, Bool.and_false]; rfl, rfl⟩
  · next hv => exact ⟨by rw [Bool.eq_false_iff.2 hv, Bool.not_false, Bool.and_true], rfl⟩

theorem writeCmd_keeps (s : State) (v : Word) :
    (s.writeCmd v).ovr = (s.ovr || s.busy) ∧ (s.writeCmd v).strict = s.strict := by
  unfold State.writeCmd
  split
  · next hb => exact ⟨by simp [hb], rfl⟩
  · next hb => exact ⟨by simp [hb], rfl⟩

/-- What a register write does to OVR. -/
theorem writeRegister_keeps (s : State) (o n : Nat) (v : Word) :
    (s.writeRegister o v).ovr = (!(HostEvent.regWrite o n v).clearsOvr && (s.ovr || s.busy && o == 0x0C)) ∧
      (s.writeRegister o v).strict = s.strict := by
  unfold State.writeRegister
  split
  case h_1 => simpa [HostEvent.clearsOvr, Bool.and_comm] using writeCtrl_keeps s v
  case h_2 => simp [HostEvent.clearsOvr, State.writeStatus, Bool.and_comm]
  case h_3 => simpa [HostEvent.clearsOvr] using writeCmd_keeps s v
  case h_8 hctrl hstatus hcmd _ _ _ _ =>
    simp [HostEvent.clearsOvr, beq_eq_false_iff_ne.2 hctrl, beq_eq_false_iff_ne.2 hstatus, beq_eq_false_iff_ne.2 hcmd]
  all_goals simp [HostEvent.clearsOvr]

/-- A step that takes an event of the host is no breach of the contract in a strict state; a breach sets OVR, and the
three events named clear it. -/
theorem step_cons_next {s t : State} {e : HostEvent} {rest : List HostEvent} (hh : s.host = e :: rest)
    (h : step s = .next t) :
    (s.strict && s.busy && e.needsIdle) = false ∧
      t.ovr = (!e.clearsOvr && (s.ovr || s.busy && e.needsIdle)) ∧ t.strict = s.strict := by
  rcases step_next h with ⟨hnil, -⟩ | ⟨e', rest', hh', hcases⟩
  · cases hnil.symm.trans hh
  · cases hh.symm.trans hh'
    rcases hcases with ⟨rfl, ht⟩ | ⟨rfl, rfl⟩ | ⟨o, n, v, rfl, -, hguard, rfl⟩ | ⟨o, n, rfl, -, rfl⟩ |
      ⟨a, n, v, rfl, -, hguard, rfl⟩ | ⟨a, n, rfl, -, hguard, rfl⟩
    · exact ⟨Bool.and_false _, by simpa [HostEvent.clearsOvr, HostEvent.needsIdle] using coreTurn_keeps ht⟩
    · exact ⟨Bool.and_false _, rfl, rfl⟩
    · exact ⟨hguard, writeRegister_keeps _ o n v⟩
    · exact ⟨Bool.and_false _, by simp [HostEvent.clearsOvr, HostEvent.needsIdle]⟩
    · refine ⟨(Bool.and_true _).trans hguard, ?_⟩
      unfold State.hostWriteDmem
      split <;> simp_all [HostEvent.clearsOvr, HostEvent.needsIdle]
    · refine ⟨(Bool.and_true _).trans hguard, ?_⟩
      unfold State.hostReadDmem
      split <;> simp_all [HostEvent.clearsOvr, HostEvent.needsIdle]

theorem step_nil_next {s t : State} (hh : s.host = []) (h : step s = .next t) : t.ovr = s.ovr ∧ t.strict = s.strict :=
  coreTurn_keeps ((step_nil hh).symm.trans h)

theorem step_strict {s t : State} (h : step s = .next t) : t.strict = s.strict := by
  cases hh : s.host with
  | nil => exact (step_nil_next hh h).2
  | cons e rest =>
    obtain ⟨-, -, hstrict⟩ := step_cons_next hh h
    exact hstrict

/-- A breach of the contract after which the step goes on is one of a state that is not strict (R405). -/
theorem strict_of_breaksContract {s t : State} (h : step s = .next t) (hb : s.breaksContract = true) :
    s.strict = false := by
  cases hh : s.host with
  | nil => simp [breaksContract_nil hh] at hb
  | cons e rest =>
    obtain ⟨hguard, -⟩ := step_cons_next hh h
    rw [breaksContract_cons hh] at hb
    rwa [Bool.and_assoc, hb, Bool.and_true] at hguard

theorem needsIdle_of_clearsOvr {e : HostEvent} (h : e.clearsOvr = true) : e.needsIdle = false := by
  cases e with
  | regWrite o n v =>
    simp only [HostEvent.clearsOvr, Bool.or_eq_true, Bool.and_eq_true, beq_iff_eq] at h
    rcases h with ⟨rfl, -⟩ | ⟨rfl, -⟩ <;> rfl
  | powerOn => rfl
  | _ => cases h

theorem width_of_step_regWrite {s t : State} {o n : Nat} {v : Word} {rest : List HostEvent}
    (hh : s.host = .regWrite o n v :: rest) (h : step s = .next t) : n = 4 := by
  by_contra hn
  have hbad : ¬registerAccessOk o n = true := fun hok => hn ((registerAccessOk_iff o n).1 hok).1
  rw [step_cons hh, State.hostStep, if_neg hbad] at h
  cases h

/-- The events that clear OVR, as the host's next event of a step that goes on. -/
theorem host_of_clearsOvr {s t : State} {e : HostEvent} {rest : List HostEvent} (hh : s.host = e :: rest)
    (h : step s = .next t) (hc : e.clearsOvr = true) :
    s.host = .powerOn :: rest ∨ (∃ v, v.getLsbD 2 = true ∧ s.host = .regWrite 0x08 4 v :: rest) ∨
      (∃ v, v.getLsbD 31 = true ∧ s.host = .regWrite 0x04 4 v :: rest) := by
  cases e with
  | powerOn => exact .inl hh
  | regWrite o n v =>
    obtain rfl := width_of_step_regWrite hh h
    simp only [HostEvent.clearsOvr, Bool.or_eq_true, Bool.and_eq_true, beq_iff_eq] at hc
    rcases hc with ⟨rfl, hv⟩ | ⟨rfl, hv⟩
    · exact .inr (.inl ⟨v, hv, hh⟩)
    · exact .inr (.inr ⟨v, hv, hh⟩)
  | _ => cases hc

/-- Settles O10: OVR after a step that takes an event, by whether the event breaks the contract or clears OVR. -/
theorem ovrRecordsContractBreaches : Obligations.OvrRecordsContractBreaches := by
  intro s t h
  refine ⟨fun hb => ⟨?_, strict_of_breaksContract h hb⟩, fun hb ht => ?_, fun hovr => ?_, step_strict h⟩
  · cases hh : s.host with
    | nil => simp [breaksContract_nil hh] at hb
    | cons e rest =>
      obtain ⟨-, hovr, -⟩ := step_cons_next hh h
      rw [breaksContract_cons hh] at hb
      have hidle : e.needsIdle = true := (Bool.and_eq_true_iff.1 hb).2
      have hclears : e.clearsOvr = false := Bool.eq_false_iff.2 fun hc => by
        cases (needsIdle_of_clearsOvr hc).symm.trans hidle
      rw [hovr, hb, hclears, Bool.or_true]
      rfl
  · cases hh : s.host with
    | nil => exact (step_nil_next hh h).1 ▸ ht
    | cons e rest =>
      obtain ⟨-, hovr, -⟩ := step_cons_next hh h
      rw [breaksContract_cons hh] at hb
      rw [hovr, hb, Bool.or_false, Bool.and_eq_true] at ht
      exact ht.2
  · cases hh : s.host with
    | nil => exact .inl ((step_nil_next hh h).1.trans hovr)
    | cons e rest =>
      obtain ⟨-, hovr', -⟩ := step_cons_next hh h
      cases hc : e.clearsOvr with
      | false => exact .inl (by simp [hovr', hc, hovr])
      | true => exact .inr ⟨rest, hh ▸ host_of_clearsOvr hh h hc⟩

end Sys2Proof.Machine

/-! # What stops the machine -/

namespace Sys2Proof.Machine

/-! ## The faults -/

theorem exec_ne_fault (i : Instr) (s : State) (f : Fault) : exec i s ≠ .fault f := by
  obtain ⟨t, ht, -⟩ := everyCommandCompletes i s
  rw [ht]
  nofun

theorem exists_coreTurn_next (s : State) : ∃ t, s.coreTurn = .next t := by
  unfold State.coreTurn State.coreStep
  split
  · split
    · obtain ⟨t, ht, -⟩ := everyCommandCompletes _ s
      exact ⟨t, ht⟩
    · exact ⟨_, rfl⟩
  · exact ⟨s, rfl⟩

section

variable {s : State} {f : Fault} {o a n : Nat} {v : Word}

/-- A check before a result that answers a fault (R83, R84). -/
theorem ite_fault_iff {p : Prop} [Decidable p] {r : Result} {g : Fault} :
    (if p then r else .fault g) = .fault f ↔ (p ∧ r = .fault f) ∨ (¬p ∧ f = g) := by
  split <;> simp [*, eq_comm]

theorem regWrite_fault_iff : s.hostStep (.regWrite o n v) = .fault f ↔
    (¬(n = 4 ∧ o % 4 = 0 ∧ o < 256) ∧ f = .registerBusError o n) ∨
      (o = 0x0C ∧ n = 4 ∧ s.strict = true ∧ s.busy = true ∧ f = .cmdWriteWhileBusy v) := by
  rw [State.hostStep, ite_fault_iff, registerAccessOk_iff, guardContract_fault]
  simp only [Bool.and_eq_true, beq_iff_eq]
  constructor
  · rintro (⟨⟨hn, -⟩, ⟨⟨hs, hb⟩, ho⟩, hf⟩ | h)
    · exact .inr ⟨ho, hn, hs, hb, hf⟩
    · exact .inl h
  · rintro (h | ⟨rfl, rfl, hs, hb, hf⟩)
    · exact .inr h
    · exact .inl ⟨by decide, ⟨⟨hs, hb⟩, rfl⟩, hf⟩

theorem regRead_fault_iff : s.hostStep (.regRead o n) = .fault f ↔
    ¬(n = 4 ∧ o % 4 = 0 ∧ o < 256) ∧ f = .registerBusError o n := by
  rw [State.hostStep, ite_fault_iff, registerAccessOk_iff]
  simp

/-- The fault of a DMEM access, a write or a read: a bus error, or a breach of the contract. -/
theorem dmemAccess_fault_iff {t : State} :
    (if s.dmemAccessOk a n = true then s.guardContract true (.dmemAccessWhileBusy a n) t
      else .fault (.dmemBusError a n)) = .fault f ↔
    (¬((n = 1 ∨ n = 2 ∨ n = 4) ∧ a % n = 0 ∧ a + n ≤ s.memSize) ∧ f = .dmemBusError a n) ∨
      (((n = 1 ∨ n = 2 ∨ n = 4) ∧ a % n = 0 ∧ a + n ≤ s.memSize) ∧ s.strict = true ∧ s.busy = true ∧
        f = .dmemAccessWhileBusy a n) := by
  rw [ite_fault_iff, dmemAccessOk_iff, guardContract_fault, or_comm]
  simp [and_assoc]

end

/-- The events that stop the machine, and the fault each stops it with (R405). -/
def FaultsWith (s : State) (f : Fault) (e : HostEvent) : Prop :=
  (∃ o n, ((∃ v, e = .regWrite o n v) ∨ e = .regRead o n) ∧ ¬(n = 4 ∧ o % 4 = 0 ∧ o < 256) ∧
    f = .registerBusError o n) ∨
  (∃ a n, ((∃ v, e = .dmemWrite a n v) ∨ e = .dmemRead a n) ∧
    ((¬((n = 1 ∨ n = 2 ∨ n = 4) ∧ a % n = 0 ∧ a + n ≤ s.memSize) ∧ f = .dmemBusError a n) ∨
     (((n = 1 ∨ n = 2 ∨ n = 4) ∧ a % n = 0 ∧ a + n ≤ s.memSize) ∧ s.strict = true ∧ s.busy = true ∧
       f = .dmemAccessWhileBusy a n))) ∨
  (∃ v, e = .regWrite 0x0C 4 v ∧ s.strict = true ∧ s.busy = true ∧ f = .cmdWriteWhileBusy v)

theorem hostStep_fault_iff (s : State) (e : HostEvent) (f : Fault) : s.hostStep e = .fault f ↔ FaultsWith s f e := by
  cases e with
  | regWrite o n v =>
    rw [regWrite_fault_iff]
    simp [FaultsWith, and_assoc]
  | regRead o n =>
    rw [regRead_fault_iff]
    simp [FaultsWith]
  | dmemWrite a n v =>
    refine dmemAccess_fault_iff.trans ?_
    simp [FaultsWith]
  | dmemRead a n =>
    refine dmemAccess_fault_iff.trans ?_
    simp [FaultsWith]
  | wait =>
    obtain ⟨t, ht⟩ := exists_coreTurn_next s
    simp [FaultsWith, State.hostStep, ht]
  | powerOn => simp [FaultsWith, State.hostStep]

theorem step_fault_iff (s : State) (f : Fault) :
    step s = .fault f ↔ ∃ e rest, s.host = e :: rest ∧ FaultsWith s f e := by
  cases hh : s.host with
  | nil =>
    obtain ⟨t, ht⟩ := exists_coreTurn_next s
    simp [step_nil hh, ht]
  | cons e rest =>
    have hfaults : FaultsWith { s with host := rest } f e ↔ FaultsWith s f e := .rfl
    rw [step_cons hh, hostStep_fault_iff, hfaults]
    simp

theorem guardContract_ne_refused (s t : State) (b : Bool) (f : Fault) (r : Refusal) :
    s.guardContract b f t ≠ .refused r := by
  unfold State.guardContract
  split <;> nofun

theorem ite_fault_ne_refused {p : Prop} [Decidable p] {k : Result} {f : Fault} {r : Refusal} (h : k ≠ .refused r) :
    (if p then k else .fault f) ≠ .refused r := by
  split
  · exact h
  · nofun

theorem hostStep_ne_refused (s : State) (e : HostEvent) (r : Refusal) : s.hostStep e ≠ .refused r := by
  cases e with
  | regRead => exact ite_fault_ne_refused nofun
  | regWrite | dmemWrite | dmemRead => exact ite_fault_ne_refused (guardContract_ne_refused _ _ _ _ r)
  | wait =>
    obtain ⟨t, ht⟩ := exists_coreTurn_next s
    exact fun h => nomatch ht.symm.trans h
  | powerOn => nofun

theorem step_ne_refused (s : State) (r : Refusal) : step s ≠ .refused r := by
  cases hh : s.host with
  | nil =>
    obtain ⟨t, ht⟩ := exists_coreTurn_next s
    exact fun h => nomatch ht.symm.trans ((step_nil hh).symm.trans h)
  | cons e rest =>
    rw [step_cons hh]
    exact hostStep_ne_refused _ e r

/-! ## Safe runs -/

theorem run_succ_next {s t : State} (h : step s = .next t) (k : Nat) :
    Sys2Proof.core.run (k + 1) s = Sys2Proof.core.run k t := by
  have hstep : Sys2Proof.core.step s = .next t := h
  simp only [Host.Core.run, hstep]

theorem run_succ_fault {s : State} {f : Fault} (h : step s = .fault f) (k : Nat) :
    Sys2Proof.core.run (k + 1) s = .fault f := by
  have hstep : Sys2Proof.core.step s = .fault f := h
  simp only [Host.Core.run, hstep]

theorem safeRun_succ_iff (k : Nat) (s : State) :
    safeRun (k + 1) s = true ↔ s.breaksContract = false ∧ ∃ t, step s = .next t ∧ safeRun k t = true := by
  rw [safeRun]
  cases step s <;> simp

/-- In a strict state, a run is safe exactly when it goes on (R405). -/
theorem safeRun_iff_of_strict (k : Nat) {s : State} (hs : s.strict = true) :
    safeRun k s = true ↔ ∃ t, Sys2Proof.core.run k s = .next t := by
  induction k generalizing s with
  | zero => exact iff_of_true rfl ⟨s, rfl⟩
  | succ k ih =>
    rw [safeRun_succ_iff]
    cases h : step s with
    | next t =>
      have hb : s.breaksContract = false := Bool.eq_false_iff.2 fun hb => by
        cases (strict_of_breaksContract h hb).symm.trans hs
      rw [run_succ_next h, ← ih ((step_strict h).trans hs)]
      simp [hb]
    | fault f =>
      rw [run_succ_fault h]
      simp
    | refused r => exact absurd h (step_ne_refused s r)

/-! ## The field `strict` -/

/-- The state with another value in the field `strict`. -/
def State.withStrict (b : Bool) (s : State) : State := { s with strict := b }

/-- The result `r'` is the result `r` with another value in the field `strict`. -/
def AgreesStrict (b : Bool) (r' r : Result) : Prop := r' = mapNext (State.withStrict b) r

section

variable {b : Bool}

theorem AgreesStrict.next {t' t : State} (h : t' = t.withStrict b) : AgreesStrict b (.next t') (.next t) := h ▸ rfl

theorem AgreesStrict.succeed {u' u : State} (h : u' = u.withStrict b) : AgreesStrict b (succeed u') (succeed u) :=
  .next (h ▸ rfl)

theorem AgreesStrict.output {u' u : State} {v' v : List Byte} (hu : u' = u.withStrict b) (hv : v' = v) :
    AgreesStrict b (Machine.succeed (u'.writeOut v')) (Machine.succeed (u.writeOut v)) := by
  subst hu hv
  rfl

theorem AgreesStrict.raiseError (code : ErrCode) (s : State) :
    AgreesStrict b (raiseError code (s.withStrict b)) (raiseError code s) := rfl

theorem AgreesStrict.check {ok : Bool} {code : ErrCode} {s : State} {k' k : Result} (h : AgreesStrict b k' k) :
    AgreesStrict b (check ok code (s.withStrict b) k') (check ok code s k) := by
  cases ok with
  | true => exact h
  | false => exact .raiseError code s

theorem AgreesStrict.withPad {pad : BitVec 2} {s : State} {k' k : Pad → Result}
    (h : ∀ p, AgreesStrict b (k' p) (k p)) : AgreesStrict b (withPad pad (s.withStrict b) k') (withPad pad s k) := by
  unfold Machine.withPad
  split
  · exact h _
  · exact .raiseError ..

theorem AgreesStrict.encInput {p : Pad} {s : State} {k' k : List Byte → Result}
    (h : ∀ d, AgreesStrict b (k' d) (k d)) : AgreesStrict b (encInput p (s.withStrict b) k') (encInput p s k) :=
  .check (.check (h _))

theorem AgreesStrict.decInput {s : State} {k' k : List Byte → Result} (h : ∀ d, AgreesStrict b (k' d) (k d)) :
    AgreesStrict b (decInput (s.withStrict b) k') (decInput s k) := .check (.check (h _))

theorem AgreesStrict.decOutput {p : Pad} {u' u : State} {out' out : List Byte} (hu : u' = u.withStrict b)
    (hout : out' = out) : AgreesStrict b (decOutput p u' out') (decOutput p u out) := by
  subst hu hout
  unfold Machine.decOutput
  split
  · exact .succeed rfl
  · exact .raiseError ..

theorem execKeyLoad_agreesStrict (s : State) : AgreesStrict b (execKeyLoad (s.withStrict b)) (execKeyLoad s) := by
  have hcount : (s.withStrict b).count = s.count := rfl
  unfold execKeyLoad
  rw [hcount]
  split
  · exact .raiseError ..
  · exact .check (.succeed rfl)

theorem execStateRead_agreesStrict (sel : BitVec 4) (s : State) :
    AgreesStrict b (execStateRead sel (s.withStrict b)) (execStateRead sel s) := by
  have hreg : (s.withStrict b).contextRegister sel = s.contextRegister sel := rfl
  unfold execStateRead
  rw [hreg]
  split
  · exact .raiseError ..
  · exact .check (.output rfl rfl)

/-- No check and no value of a command is of the field `strict`. -/
theorem exec_agreesStrict (i : Instr) (s : State) : AgreesStrict b (exec i (s.withStrict b)) (exec i s) := by
  cases i with
  | nop | keyClear => exact .succeed rfl
  | keyLoad => exact execKeyLoad_agreesStrict s
  | stateRead sel => exact execStateRead_agreesStrict sel s
  | gf8Mul | sboxFwd | sboxInv | gf128Mul => exact .check (.output rfl rfl)
  | cbcSetiv | ctrSetctr | ghashInit => exact .check (.succeed rfl)
  | xtsSettweak | ghashUpdate => exact .check (.check (.succeed rfl))
  | ghashFinal => exact .check (.check (.output rfl rfl))
  | ksRead | blkEnc | blkDec | ctrXor => exact .check (.check (.check (.output rfl rfl)))
  | xtsEnc | xtsDec => exact .check (.check (.check (.check (.output rfl rfl))))
  | ecbEnc => exact .withPad fun _ => .check (.encInput fun _ => .output rfl rfl)
  | ecbDec => exact .withPad fun _ => .check (.decInput fun _ => .decOutput rfl rfl)
  | cbcEnc | xexEnc => exact .withPad fun _ => .check (.check (.encInput fun _ => .output rfl rfl))
  | cbcDec | xexDec => exact .withPad fun _ => .check (.check (.decInput fun _ => .decOutput rfl rfl))

theorem coreTurn_agreesStrict (s : State) : AgreesStrict b (s.withStrict b).coreTurn s.coreTurn := by
  have hbusy : (s.withStrict b).busy = s.busy := rfl
  have hcmdl : (s.withStrict b).cmdl = s.cmdl := rfl
  unfold State.coreTurn State.coreStep
  rw [hbusy, hcmdl]
  split
  · split
    · exact exec_agreesStrict _ s
    · exact .raiseError ..
  · exact .next rfl

/-! ## The host's accesses, strict or not -/

theorem ite_withStrict {c : Bool} {x' x y' y : State} (hx : x' = x.withStrict b) (hy : y' = y.withStrict b) :
    (if c then x' else y') = State.withStrict b (if c then x else y) := by
  cases c with
  | true => exact hx
  | false => exact hy

theorem writeRegister_withStrict (s : State) (o : Nat) (v : Word) :
    (s.withStrict b).writeRegister o v = (s.writeRegister o v).withStrict b := by
  have hctrl : (s.withStrict b).writeCtrl v = (s.writeCtrl v).withStrict b := ite_withStrict rfl rfl
  have hcmd : (s.withStrict b).writeCmd v = (s.writeCmd v).withStrict b := ite_withStrict rfl rfl
  unfold State.writeRegister
  split
  case h_1 => exact hctrl
  case h_3 => exact hcmd
  all_goals rfl

theorem hostReadDmem_withStrict (s : State) (a n : Nat) :
    (s.withStrict b).hostReadDmem a n = (s.hostReadDmem a n).withStrict b := 
  ite_withStrict rfl rfl

theorem hostWriteDmem_withStrict (s : State) (a n : Nat) (v : Word) :
    (s.withStrict b).hostWriteDmem a n v = (s.hostWriteDmem a n v).withStrict b := 
  ite_withStrict rfl rfl

/-- A guarded access that is no breach of the contract goes on, strict or not. -/
theorem AgreesStrict.guardContract {s t' t : State} {needsIdle : Bool} {f : Fault}
    (hidle : (s.busy && needsIdle) = false) (h : t' = t.withStrict b) :
    AgreesStrict b ((s.withStrict b).guardContract needsIdle f t') (s.guardContract needsIdle f t) := by
  have hguard (strict : Bool) : (strict && s.busy && needsIdle) = false := by
    rw [Bool.and_assoc, hidle, Bool.and_false]
  rw [guardContract_of_false (s := s) (hguard s.strict), guardContract_of_false (s := s.withStrict b) (hguard b)]
  exact .next h

theorem AgreesStrict.ite_fault {ok : Bool} {r' r : Result} {f : Fault} (h : AgreesStrict b r' r) :
    AgreesStrict b (if ok then r' else .fault f) (if ok then r else .fault f) := by
  cases ok with
  | true => exact h
  | false => rfl

theorem hostStep_agreesStrict {s : State} {e : HostEvent} (hidle : (s.busy && e.needsIdle) = false) :
    AgreesStrict b ((s.withStrict b).hostStep e) (s.hostStep e) := by
  cases e with
  | regWrite o n v => exact .ite_fault (.guardContract hidle (writeRegister_withStrict s o v))
  | regRead o n => exact .ite_fault (.next rfl)
  | dmemWrite a n v => exact .ite_fault (.guardContract hidle (hostWriteDmem_withStrict s a n v))
  | dmemRead a n => exact .ite_fault (.guardContract hidle (hostReadDmem_withStrict s a n))
  | wait => exact coreTurn_agreesStrict s
  | powerOn => exact .next rfl

theorem step_agreesStrict {s : State} (hb : s.breaksContract = false) :
    AgreesStrict b (step (s.withStrict b)) (step s) := by
  cases hh : s.host with
  | nil =>
    have hh' : (s.withStrict b).host = [] := hh
    rw [step_nil hh, step_nil hh']
    exact coreTurn_agreesStrict s
  | cons e rest =>
    have hh' : (s.withStrict b).host = e :: rest := hh
    rw [step_cons hh, step_cons hh']
    rw [breaksContract_cons hh] at hb
    exact hostStep_agreesStrict (s := { s with host := rest }) hb

end

/-- A safe run is the same, strict or not. -/
theorem exists_run_of_safeRun (b : Bool) (k : Nat) {s : State} (h : safeRun k s = true) :
    ∃ t : State, Sys2Proof.core.run k s = .next t ∧ Sys2Proof.core.run k (s.withStrict b) = .next (t.withStrict b) := by
  induction k generalizing s with
  | zero => exact ⟨s, rfl, rfl⟩
  | succ k ih =>
    obtain ⟨hb, t, ht, hsafe⟩ := (safeRun_succ_iff k s).1 h
    have ht' : step (s.withStrict b) = .next (t.withStrict b) := by
      have hagree : step (s.withStrict b) = mapNext (State.withStrict b) (step s) := step_agreesStrict hb
      rw [hagree, ht, mapNext]
    rw [run_succ_next ht, run_succ_next ht']
    exact ih hsafe

/-- Settles O9: the faults of each event, the runs of strict states, and that of a safe run the field `strict` decides
nothing. -/
theorem onlyHostErrorsStopTheMachine : Obligations.OnlyHostErrorsStopTheMachine :=
  ⟨step_fault_iff, step_ne_refused, exec_ne_fault, fun k _ hs => safeRun_iff_of_strict k hs,
    fun k _ b h => exists_run_of_safeRun b k h⟩

end Sys2Proof.Machine

/-! # Decrypting what a block mode encrypted -/

namespace Sys2Proof.Machine

/-! ## Blocks and their bytes -/

theorem blocksOf_bytesOf (bs : List Block) : blocksOf (bytesOf bs) = bs := by
  induction bs with
  | nil => rfl
  | cons b bs ih => rw [bytesOf_cons, blocksOf_toBytes_append, ih]

theorem bytesOf_blocksOf {d : List Byte} (h : d.length % 16 = 0) : bytesOf (blocksOf d) = d := by
  induction d using blocks_induction with
  | short d hd =>
    have hnil : d = [] := List.length_eq_zero_iff.1 (by omega)
    rw [hnil]
    rfl
  | block b d ih =>
    rw [List.length_append, Block.toBytes_length, Nat.add_mod_left] at h
    rw [blocksOf_toBytes_append, bytesOf_cons, ih h]

theorem toBytes_ofBytes_of_le {l : List Byte} (h : 16 ≤ l.length) : (Block.ofBytes l).toBytes = l.take 16 := by
  have hhead := Block.toBytes_ofBytes (l.take 16) (List.length_take_of_le h)
  have hblock : Block.ofBytes l = Block.ofBytes (l.take 16) := by
    rw [← Block.ofBytes_append (Block.ofBytes (l.take 16)) (l.drop 16), hhead, List.take_append_drop]
  rw [hblock, hhead]

theorem toBytes_blockOf {d : List Byte} {n : Nat} (h : 16 * n + 16 ≤ d.length) :
    (blockOf d n).toBytes = (d.drop (16 * n)).take 16 :=
  toBytes_ofBytes_of_le (by rw [List.length_drop]; omega)

theorem flatMap_toBytes_blockOf {d : List Byte} {n : Nat} (h : 16 * n ≤ d.length) :
    ((List.range n).flatMap fun j => (blockOf d j).toBytes) = d.take (16 * n) := by
  induction n with
  | zero => rfl
  | succ n ih =>
    rw [List.range_succ, List.flatMap_append, ih (by omega), List.flatMap_singleton, toBytes_blockOf h, Nat.mul_succ,
      List.take_add]

/-! ## The inverse loops -/

section

variable {enc dec : Block → Block} (hdec : ∀ b, dec (enc b) = b)
include hdec

theorem xexBlock_xexBlock (b t : Block) : xexBlock dec (xexBlock enc b t) t = b := by
  rw [xexBlock, xexBlock, Block.xor_xor_cancel, hdec, Block.xor_xor_cancel]

theorem cbcDecrypt_cbcEncrypt (cv : Block) (ps : List Block) :
    cbcDecrypt dec cv (cbcEncrypt enc cv ps).1 = (ps, (cbcEncrypt enc cv ps).2) := by
  induction ps generalizing cv with
  | nil => rfl
  | cons p ps ih => simp only [cbcEncrypt, cbcDecrypt, ih, hdec, Block.xor_xor_cancel]

theorem xexBlocks_xexBlocks (t : Block) (bs : List Block) :
    xexBlocks dec t (xexBlocks enc t bs).1 = (bs, (xexBlocks enc t bs).2) := by
  induction bs generalizing t with
  | nil => rfl
  | cons b bs ih => simp only [xexBlocks, ih, xexBlock_xexBlock hdec]

/-- The first `n` blocks of what R340 gives, decrypted by R341. -/
theorem xtsPrefix_of_blocks {t : Block} {c d : List Byte} {n : Nat} (hn : 16 * n ≤ d.length)
    (hc : ∀ j, j < n → blockOf c j = xexBlock enc (blockOf d j) (xtsDoubleIter j t)) :
    xtsPrefix dec t c n = d.take (16 * n) := by
  rw [← flatMap_toBytes_blockOf hn, xtsPrefix]
  refine List.flatMap_congr fun j hj => ?_
  rw [hc j (List.mem_range.1 hj), xexBlock_xexBlock hdec]

end

/-- A block rebuilt from a short last block and a stolen tail begins with the one and ends with the other (R340,
R341). -/
theorem toBytes_rebuilt {l : List Byte} {k : Nat} (b : Block) (hl : l.length = k) (hk : k ≤ 16) :
    (Block.ofBytes (l ++ b.toBytes.drop k)).toBytes = l ++ b.toBytes.drop k := by
  refine Block.toBytes_ofBytes _ ?_
  rw [List.length_append, List.length_drop, Block.toBytes_length]
  omega

/-- R341 undoes R340 where there is no stealer. -/
theorem xtsDecrypt_fst_of_mod {enc dec : Block → Block} (hdec : ∀ b, dec (enc b) = b) (t : Block) {d : List Byte}
    (hd : 16 ≤ d.length) (hb : d.length % 16 = 0) : (xtsDecrypt dec t (xtsEncrypt enc t d).1).1 = d := by
  have hlen := xtsEncrypt_length enc t d hd
  have hblocks (j : Nat) (hj : j < d.length / 16) : blockOf (xtsEncrypt enc t d).1 j =
      xexBlock enc (blockOf d j) (xtsDoubleIter j t) := by
    rw [xtsEncrypt_fst enc t d rfl rfl rfl, blockOf_xtsOutput hj (.inl hb)]
  rw [xtsDecrypt_fst dec t _ rfl rfl rfl, xtsOutput, hlen, if_pos hb, xtsPrefix_of_blocks hdec (by omega) hblocks]
  exact List.take_of_length_le (by omega)

/-- R341 undoes R340 where there is one: the stolen tail of CC is the tail of PP, and CC's head is what the ciphertext
ends with. -/
theorem xtsDecrypt_fst_of_stealing {enc dec : Block → Block} (hdec : ∀ b, dec (enc b) = b) (t : Block) {d : List Byte}
    (hd : 16 ≤ d.length) (hb : d.length % 16 ≠ 0) : (xtsDecrypt dec t (xtsEncrypt enc t d).1).1 = d := by
  have hlen := xtsEncrypt_length enc t d hd
  have hc := xtsEncrypt_fst enc t d rfl rfl rfl
  generalize (xtsEncrypt enc t d).1 = c at hlen hc ⊢
  generalize hcc : xexBlock enc (blockOf d (d.length / 16 - 1)) (xtsDoubleIter (d.length / 16 - 1) t) = cc at hc
  obtain ⟨hblocks, -, hsteal⟩ := xtsOutput_blocks hc hd
  obtain ⟨hlast, htail⟩ := hsteal hb
  have hshort : (d.drop (16 * (d.length / 16))).length = d.length % 16 := by rw [List.length_drop]; omega
  have hpp := toBytes_rebuilt cc hshort (by omega)
  generalize Block.ofBytes (d.drop (16 * (d.length / 16)) ++ cc.toBytes.drop (d.length % 16)) = pp at hlast hpp
  have hpp' : pp = xexBlock dec (blockOf c (c.length / 16 - 1)) (xtsDoubleIter (c.length / 16) t) := by
    rw [hlen, hlast, xexBlock_xexBlock hdec]
  have hwhole : 16 * (d.length / 16 - 1) + 16 = 16 * (d.length / 16) := by omega
  rw [xtsDecrypt_fst dec t c rfl rfl hpp', xtsOutput, hlen, if_neg hb, htail, hpp, List.drop_left' hshort,
    List.take_left' hshort, List.take_append_drop, Block.ofBytes_toBytes, ← hcc, xexBlock_xexBlock hdec,
    toBytes_blockOf (by omega), xtsPrefix_of_blocks hdec (by omega) (fun j hj => hblocks j (by omega)), ← List.take_add,
    hwhole, List.take_append_drop]

theorem xtsDecrypt_xtsEncrypt {enc dec : Block → Block} (hdec : ∀ b, dec (enc b) = b) (t : Block) {d : List Byte}
    (hd : 16 ≤ d.length) : xtsDecrypt dec t (xtsEncrypt enc t d).1 = (d, (xtsEncrypt enc t d).2) := by
  refine Prod.ext ?_ ?_
  · by_cases hb : d.length % 16 = 0
    · exact xtsDecrypt_fst_of_mod hdec t hd hb
    · exact xtsDecrypt_fst_of_stealing hdec t hd hb
  · rw [xtsDecrypt_snd, xtsEncrypt_snd, xtsEncrypt_length enc t d hd]

/-! ## The commands -/

theorem decrypt_encrypt (s : State) (b : Block) : s.decrypt (s.encrypt b) = b := decryptCore_encryptCore ..

theorem Pad.ofField?_field (p : Pad) : Pad.ofField? p.field = some p := by cases p <;> rfl

theorem not_failed_of_ok {s t : State} (hok : t.err = .ok) : ¬failed s t := by
  rintro ⟨c, hc, rfl⟩
  exact hc hok

theorem decOutput_padBytes (p : Pad) (u : State) (d : List Byte) :
    decOutput p u (padBytes p d) = succeed (u.writeOut d) := by
  rw [decOutput, unpadBytes_padBytes]

/-- The state with other contexts of CBC and of XEX and XTS: what a block mode's update makes of it. -/
def State.setModes (s : State) (cbc : CbcContext) (xts : XtsContext) : State := { s with cbc := cbc, xts := xts }

/-- The state `u` has the string `out` as the operand at SRCL, and key and contexts of the state `s`. -/
structure Rereads (s : State) (out : List Byte) (u : State) : Prop where
  keyv : u.keyv = s.keyv
  decrypt : u.decrypt = s.decrypt
  cbc : u.cbc = s.cbc
  xts : u.xts = s.xts
  srcBytes : u.srcBytes = out
  srcValid : u.srcValid u.count = true
  dstValid : u.dstValid u.count = true

theorem Rereads.count {s u : State} {out : List Byte} (h : Rereads s out u) : u.count = out.length := by
  rw [← srcBytes_length, h.srcBytes]

theorem Rereads.decryptingReady {s u : State} {out : List Byte} {loaded : Bool} (h : Rereads s out u)
    (hk : s.keyv = true) (hl : loaded = true) (hmod : out.length % 16 = 0) : decryptingReady loaded u :=
  ⟨h.keyv.trans hk, hl, h.srcValid, h.dstValid, h.count ▸ hmod⟩

/-- The state `t` is `s` after an encryption to `out`, and `dec` gives the plaintext and the contexts of `t` back from
every state that has `out` as its operand and the contexts of `s` (R343). -/
def ReversedBy (dec : Instr) (s t : State) (out : List Byte) : Prop :=
  s.dstValid out.length = true ∧ ∃ cbc xts, t = ((s.setModes cbc xts).writeOut out).complete .ok ∧
    ∀ u, Rereads s out u → exec dec u = succeed ((u.setModes cbc xts).writeOut s.srcBytes)

section

variable {p : Pad} {s t : State}

theorem exec_ecbDec_of_ready {u : State} (h : decryptingReady true u) :
    exec (.ecbDec p.field) u = decOutput p u (bytesOf ((blocksOf u.srcBytes).map u.decrypt)) := by
  have hexec : exec (.ecbDec p.field) u = check u.keyv .noKey u (check true .badState u (decInput u fun c =>
      decOutput p u (bytesOf ((blocksOf c).map u.decrypt)))) := withPad_field p u _
  exact exec_of_decryptingReady hexec h

theorem exec_cbcDec_of_ready {u : State} (h : decryptingReady u.cbc.cbcv u) : exec (.cbcDec p.field) u =
    decOutput p (u.setCv (cbcDecrypt u.decrypt u.cbc.cv (blocksOf u.srcBytes)).2)
      (bytesOf (cbcDecrypt u.decrypt u.cbc.cv (blocksOf u.srcBytes)).1) := by
  have hexec : exec (.cbcDec p.field) u = check u.keyv .noKey u (check u.cbc.cbcv .badState u (decInput u fun c =>
      decOutput p (u.setCv (cbcDecrypt u.decrypt u.cbc.cv (blocksOf c)).2)
        (bytesOf (cbcDecrypt u.decrypt u.cbc.cv (blocksOf c)).1))) := withPad_field p u _
  exact exec_of_decryptingReady hexec h

theorem exec_xexDec_of_ready {u : State} (h : decryptingReady u.xts.xtsv u) : exec (.xexDec p.field) u =
    decOutput p (u.setTwk (xexBlocks u.decrypt u.xts.twk (blocksOf u.srcBytes)).2)
      (bytesOf (xexBlocks u.decrypt u.xts.twk (blocksOf u.srcBytes)).1) := by
  have hexec : exec (.xexDec p.field) u = check u.keyv .noKey u (check u.xts.xtsv .badState u (decInput u fun c =>
      decOutput p (u.setTwk (xexBlocks u.decrypt u.xts.twk (blocksOf c)).2)
        (bytesOf (xexBlocks u.decrypt u.xts.twk (blocksOf c)).1))) := withPad_field p u _
  exact exec_of_decryptingReady hexec h

/-- What R310, R321 and R332 write, for the blocks `bs` they encrypt the padded plaintext to. -/
theorem encryptingReady.output {loaded : Bool} (h : encryptingReady p loaded s) {bs : List Block}
    (hbs : bs.length = (blocksOf (padBytes p s.srcBytes)).length) :
    s.dstValid (bytesOf bs).length = true ∧ (bytesOf bs).length % 16 = 0 ∧
      bytesOf (blocksOf (padBytes p s.srcBytes)) = padBytes p s.srcBytes := by
  have hlen := length_bytesOf_padBytes h hbs
  obtain ⟨-, -, hn, -, hd⟩ := h
  refine ⟨hlen ▸ hd, hlen ▸ paddedLength_mod hn, bytesOf_blocksOf ?_⟩
  rw [padBytes_length, srcBytes_length]
  exact paddedLength_mod hn

theorem ecbDec_reverses (h : exec (.ecbEnc p.field) s = .next t) (hok : t.err = .ok) :
    ∃ out, ReversedBy (.ecbDec p.field) s t out := by
  obtain hf | ⟨p', hp, hready, rfl⟩ := execEcbEnc_next h
  · exact absurd hf (not_failed_of_ok hok)
  obtain rfl := Option.some.inj ((Pad.ofField?_field p).symm.trans hp)
  obtain ⟨hd, hmod, hpad⟩ := hready.output (List.length_map s.encrypt)
  obtain ⟨hk, -, -, -, -⟩ := hready
  refine ⟨_, hd, s.cbc, s.xts, rfl, fun u hu => ?_⟩
  have hinv : s.decrypt ∘ s.encrypt = id := funext (decrypt_encrypt s)
  rw [exec_ecbDec_of_ready (hu.decryptingReady hk rfl hmod), hu.srcBytes, hu.decrypt, blocksOf_bytesOf,
    List.map_map, hinv, List.map_id, hpad, decOutput_padBytes, ← hu.cbc, ← hu.xts]
  rfl

theorem cbcDec_reverses (h : exec (.cbcEnc p.field) s = .next t) (hok : t.err = .ok) :
    ∃ out, ReversedBy (.cbcDec p.field) s t out := by
  obtain hf | ⟨p', r, hp, hready, rfl, rfl⟩ := execCbcEnc_next h
  · exact absurd hf (not_failed_of_ok hok)
  obtain rfl := Option.some.inj ((Pad.ofField?_field p).symm.trans hp)
  obtain ⟨hd, hmod, hpad⟩ := hready.output (cbcEncrypt_length s.encrypt s.cbc.cv _)
  obtain ⟨hk, hl, -, -, -⟩ := hready
  refine ⟨_, hd, _, s.xts, rfl, fun u hu => ?_⟩
  rw [exec_cbcDec_of_ready (hu.decryptingReady hk (hu.cbc ▸ hl) hmod), hu.srcBytes, hu.decrypt, hu.cbc,
    blocksOf_bytesOf, cbcDecrypt_cbcEncrypt (decrypt_encrypt s), hpad, decOutput_padBytes,
    ← hu.xts, ← hu.cbc]
  rfl

theorem xexDec_reverses (h : exec (.xexEnc p.field) s = .next t) (hok : t.err = .ok) :
    ∃ out, ReversedBy (.xexDec p.field) s t out := by
  obtain hf | ⟨p', r, hp, hready, rfl, rfl⟩ := execXexEnc_next h
  · exact absurd hf (not_failed_of_ok hok)
  obtain rfl := Option.some.inj ((Pad.ofField?_field p).symm.trans hp)
  obtain ⟨hd, hmod, hpad⟩ := hready.output (xexBlocks_length s.encrypt s.xts.twk _)
  obtain ⟨hk, hl, -, -, -⟩ := hready
  refine ⟨_, hd, s.cbc, _, rfl, fun u hu => ?_⟩
  rw [exec_xexDec_of_ready (hu.decryptingReady hk (hu.xts ▸ hl) hmod), hu.srcBytes, hu.decrypt, hu.xts,
    blocksOf_bytesOf, xexBlocks_xexBlocks (decrypt_encrypt s), hpad, decOutput_padBytes,
    ← hu.xts, ← hu.cbc]
  rfl

theorem xtsDec_reverses (h : exec .xtsEnc s = .next t) (hok : t.err = .ok) :
    ∃ out, ReversedBy .xtsDec s t out ∧ out.length = s.count := by
  obtain hf | ⟨r, ⟨hk, hl, hn, -, hd⟩, rfl, rfl⟩ := execXtsEnc_next h
  · exact absurd hf (not_failed_of_ok hok)
  have hn' : 16 ≤ s.srcBytes.length := hn.trans_eq (srcBytes_length s).symm
  have hlen : (xtsEncrypt s.encrypt s.xts.twk s.srcBytes).1.length = s.count :=
    (xtsEncrypt_length _ _ _ hn').trans (srcBytes_length s)
  refine ⟨_, ⟨hlen ▸ hd, s.cbc, _, rfl, fun u hu => ?_⟩, hlen⟩
  have hcount : u.count = s.count := hu.count.trans hlen
  have hexec : exec .xtsDec u = succeed ((u.setTwk (xtsDecrypt u.decrypt u.xts.twk u.srcBytes).2).writeOut
      (xtsDecrypt u.decrypt u.xts.twk u.srcBytes).1) :=
    exec_of_xtsReady rfl ⟨hu.keyv.trans hk, hu.xts ▸ hl, hcount ▸ hn, hu.srcValid, hu.dstValid⟩
  rw [hexec, hu.srcBytes, hu.decrypt, hu.xts, xtsDecrypt_xtsEncrypt (decrypt_encrypt s) _ hn', ← hu.xts, ← hu.cbc]
  rfl

end

/-! ## The output read back -/

/-- The state after an output was written, with the output as the operand and another destination. -/
def State.reread (s : State) (out : List Byte) (d : Word) : State :=
  { (s.writeOut out).complete .ok with srcl := s.dstl, lenl := BitVec.ofNat 32 out.length, dstl := d }

section

variable {s : State} {out : List Byte} {d : Word}

/-- A valid range is shorter than the address space (R10, R15). -/
theorem lt_of_dstValid {n : Nat} (hinv : s.Inv) (h : s.dstValid n = true) : n < 2 ^ 32 := by
  obtain ⟨-, hmax⟩ := hinv.memSizeLegal
  simp only [State.dstValid, State.valid, Bool.or_eq_true, beq_iff_eq, decide_eq_true_eq] at h
  simp only [Config.memSizeMax] at hmax
  omega

theorem reread_count (hlt : out.length < 2 ^ 32) : (s.reread out d).count = out.length := by
  rw [State.count, State.reread, BitVec.toNat_ofNat, Nat.mod_eq_of_lt hlt]

theorem reread_srcBytes (hwf : Memory.wf s.dmem) (hlt : out.length < 2 ^ 32) : (s.reread out d).srcBytes = out := by
  have hlen : (s.reread out d).srcBytes.length = out.length := (srcBytes_length _).trans (reread_count hlt)
  refine List.ext_getElem hlen fun i hi hi' => ?_
  rw [← List.getD_eq_getElem _ 0 hi, ← List.getD_eq_getElem _ 0 hi', srcBytes_getD _ (reread_count hlt ▸ hi')]
  exact (dmemWritten_writeOut s out hwf).1 i hi'

theorem reread_rereads (hinv : s.Inv) (hv : s.dstValid out.length = true)
    (hd : (s.reread out d).dstValid (s.reread out d).count = true) : Rereads s out (s.reread out d) where
  keyv := rfl
  decrypt := rfl
  cbc := rfl
  xts := rfl
  srcBytes := reread_srcBytes hinv.dmem.1 (lt_of_dstValid hinv hv)
  srcValid := by
    rw [reread_count (lt_of_dstValid hinv hv)]
    exact hv
  dstValid := hd

end

/-- Settles O45: each mode's decryption undoes its encryption, and the string written is what is read back. -/
theorem decryptingReversesEncrypting : Obligations.DecryptingReversesEncrypting := by
  intro p enc dec s t u d hinv hrev henc hok hu hd
  have hreversed : ∃ out, ReversedBy dec s t out ∧ (enc = .xtsEnc → out.length = s.count) := by
    rcases hrev with ⟨rfl, rfl⟩ | ⟨rfl, rfl⟩ | ⟨rfl, rfl⟩ | ⟨rfl, rfl⟩
    · exact (ecbDec_reverses henc hok).imp fun _ h => ⟨h, nofun⟩
    · exact (cbcDec_reverses henc hok).imp fun _ h => ⟨h, nofun⟩
    · exact (xexDec_reverses henc hok).imp fun _ h => ⟨h, nofun⟩
    · exact (xtsDec_reverses henc hok).imp fun _ h => ⟨h.1, fun _ => h.2⟩
  obtain ⟨out, ⟨hv, cbc, xts, rfl, hexec⟩, hlen⟩ := hreversed
  obtain rfl : u = s.reread out d := hu
  have hlenl : BitVec.ofNat 32 s.srcBytes.length = s.lenl := by
    rw [srcBytes_length, State.count, BitVec.ofNat_toNat, BitVec.setWidth_eq]
  have hwf : Memory.wf (s.reread out d).dmem := Memory.wf_setBytes _ _ hinv.dmem.1
  refine ⟨_, (hexec _ (reread_rereads hinv hv hd)), ⟨rfl, rfl, rfl⟩, hlenl, fun i hi => ?_, rfl, rfl, fun h => ?_⟩
  · rw [← srcBytes_getD s hi]
    exact (dmemWritten_writeOut ((s.reread out d).setModes cbc xts) s.srcBytes hwf).1 i ((srcBytes_length s).symm ▸ hi)
  · rw [← hlenl, srcBytes_length, ← hlen h]
    rfl

end Sys2Proof.Machine
